-- ==== Sys2Proof/Word.lean ====
section
/-! DEFINITION. The widths of the machine (spec/00_scope.md R7, R10): bytes, words, addresses in an
instruction, register indices, counts and key codes. -/

namespace Sys2Proof

/-- A general register, a memory byte, a timer (00_scope R7: REG_W, TIMER_W). -/
abbrev Byte := BitVec 8

/-- The 16-bit registers PC, I, IR, IR_ADDR, a call-stack entry and an instruction word (00_scope R7). -/
abbrev Word := BitVec 16

/-- The 12-bit address operand nnn of an instruction word (30_encoding R80). -/
abbrev Addr12 := BitVec 12

/-- A 4-bit register index: every value names a register (10_state R20, 36_cycle_and_blocks R102). -/
abbrev Reg := Fin 16

/-- A 4-bit count: the row count of DRAW, the count operand of DUMP and LOAD (30_encoding R80, R82). -/
abbrev Count := Fin 16

/-- A key code, 0 to 15 (10_state R31). -/
abbrev Key := Fin 16

/-- The flag register `V[15]`, written VF (10_state R22). -/
abbrev flagReg : Reg := 15

/-- MEM_SIZE: addresses 0 to 4095 (00_scope R7, 20_memory R50). -/
abbrev memSize : Nat := 4096

/-- STACK_DEPTH: the entries of the call stack (00_scope R7). -/
abbrev stackDepth : Nat := 12

/-- FB_W: columns of the framebuffer (00_scope R7). -/
abbrev fbWidth : Nat := 64

/-- FB_H: rows of the framebuffer (00_scope R7). -/
abbrev fbHeight : Nat := 32

end Sys2Proof
end

