-- ==== Sys2Proof/Syntax.lean ====
section
/-! DEFINITION. The 37 variants of the decode table (spec/30_encoding.md R84), in the table's order, with the
operands the table gives each. -/

namespace Sys2Proof

/-- The instruction set: one constructor per row of spec/opcode_table.json (30_encoding R84). -/
inductive Instr where
  | halt                                  -- 0000  HALT
  | clear                                 -- 00E0  CLEAR
  | ret                                   -- 00EE  RETURN
  | routine (nnn : Addr12)                -- 0nnn  ROUTINE
  | goto (nnn : Addr12)                   -- 1nnn  GOTO
  | call (nnn : Addr12)                   -- 2nnn  CALL
  | eqConst (x : Reg) (nn : Byte)         -- 3xkk  EQ
  | neqConst (x : Reg) (nn : Byte)        -- 4xkk  NEQ
  | eqReg (x y : Reg)                     -- 5xy0  EQ_REG
  | setConst (x : Reg) (nn : Byte)        -- 6xkk  SET_CONST
  | addConst (x : Reg) (nn : Byte)        -- 7xkk  ADD_CONST
  | setReg (x y : Reg)                    -- 8xy0  SET_REG
  | orReg (x y : Reg)                     -- 8xy1  OR
  | andReg (x y : Reg)                    -- 8xy2  AND
  | xorReg (x y : Reg)                    -- 8xy3  XOR
  | addReg (x y : Reg)                    -- 8xy4  ADD_REG
  | subReg (x y : Reg)                    -- 8xy5  SUB_REG
  | bshiftRght (x y : Reg)                -- 8xy6  BSHIFT_RGHT (y ignored)
  | subtract (x y : Reg)                  -- 8xy7  SUBTRACT
  | bshiftLeft (x y : Reg)                -- 8xyE  BSHIFT_LEFT (y ignored)
  | neqReg (x y : Reg)                    -- 9xy0  NEQ_REG
  | seti (nnn : Addr12)                   -- Annn  SETI
  | jump (nnn : Addr12)                   -- Bnnn  JUMP
  | rand (x : Reg) (nn : Byte)            -- Cxkk  RAND
  | draw (x y : Reg) (n : Count)          -- Dxyn  DRAW
  | keyP (x : Reg)                        -- Ex9E  KEY_P
  | keyNp (x : Reg)                       -- ExA1  KEY_NP
  | getDelay (x : Reg)                    -- Fx07  GET_DELAY
  | getKey (x : Reg)                      -- Fx0A  GET_KEY
  | setDelay (x : Reg)                    -- Fx15  SET_DELAY
  | setSound (x : Reg)                    -- Fx18  SET_SOUND
  | addi (x : Reg)                        -- Fx1E  ADDI
  | spri (x : Reg)                        -- Fx29  SPRI
  | bcp (x : Reg)                         -- Fx33  BCP
  | dump (x : Count)                      -- Fx55  DUMP
  | load (x : Count)                      -- Fx65  LOAD
  | noneInstr                             -- anything unmatched: NONE (its fields are discarded, R86)
  deriving DecidableEq, Repr

end Sys2Proof
end

