-- ==== Sys2Proof/WellFormed.lean ====
section
/-! DEFINITION. Which instructions have an encoding of their own (spec/30_encoding.md R87, R90). -/

namespace Sys2Proof

/-- `ROUTINE 0x000`, `ROUTINE 0x0E0` and `ROUTINE 0x0EE` cannot be written: those words are HALT, CLEAR and RETURN
(30_encoding R90). Every other field of an instruction admits every value of its width. -/
def Instr.wellFormed : Instr → Bool
  | .routine nnn => nnn != 0x000 && nnn != 0x0E0 && nnn != 0x0EE
  | _ => true

/-- The check as a proposition. -/
abbrev Instr.WellFormed (i : Instr) : Prop := i.wellFormed = true

end Sys2Proof
end

