-- ==== Sys2Proof/Decode.lean ====
section
/-! DEFINITION. The decoder of spec/30_encoding.md: the fields of a word (R80, R82), the decode procedure (R83,
R84), the decoder over bytes, the encoder, and the decode table itself as rows of match and mask. -/

namespace Sys2Proof

/-- The first nibble `w[15:12]`, which selects the family (30_encoding R80). -/
def opOf (w : Word) : Nat := w.toNat / 4096

/-- `w[11:8]`: the register index x, or the count operand of DUMP and LOAD (30_encoding R80). -/
def xOf (w : Word) : Reg := Fin.ofNat 16 (w.toNat / 256)

/-- `w[7:4]`: the register index y (30_encoding R80). -/
def yOf (w : Word) : Reg := Fin.ofNat 16 (w.toNat / 16)

/-- `w[3:0]`: a sub-opcode, or the row count of DRAW (30_encoding R80). -/
def nOf (w : Word) : Count := Fin.ofNat 16 w.toNat

/-- `w[7:0]`: the immediate, or the sub-opcode of the families E and F (30_encoding R80, R82). -/
def nnOf (w : Word) : Byte := BitVec.ofNat 8 w.toNat

/-- `w[11:0]`: the address operand (30_encoding R80, R82). -/
def nnnOf (w : Word) : Addr12 := BitVec.ofNat 12 w.toNat

/-- Family 0: the whole word against the three fixed words, then the ROUTINE catch-all (30_encoding R83, R87). -/
def decodeFamily0 (w : Word) : Instr :=
  if w = 0x0000 then .halt
  else if w = 0x00E0 then .clear
  else if w = 0x00EE then .ret
  else .routine (nnnOf w)

/-- Family 8: the last nibble 0 to 7 or E, else NONE (30_encoding R83, 90_conflicts C6). -/
def decodeFamily8 (w : Word) : Instr :=
  match (nOf w).val with
  | 0x0 => .setReg (xOf w) (yOf w)
  | 0x1 => .orReg (xOf w) (yOf w)
  | 0x2 => .andReg (xOf w) (yOf w)
  | 0x3 => .xorReg (xOf w) (yOf w)
  | 0x4 => .addReg (xOf w) (yOf w)
  | 0x5 => .subReg (xOf w) (yOf w)
  | 0x6 => .bshiftRght (xOf w) (yOf w)
  | 0x7 => .subtract (xOf w) (yOf w)
  | 0xE => .bshiftLeft (xOf w) (yOf w)
  | _ => .noneInstr

/-- Family E: the low byte 9E or A1, else NONE (30_encoding R83). -/
def decodeFamilyE (w : Word) : Instr :=
  match (nnOf w).toNat with
  | 0x9E => .keyP (xOf w)
  | 0xA1 => .keyNp (xOf w)
  | _ => .noneInstr

/-- Family F: the nine listed low bytes, else NONE (30_encoding R83). -/
def decodeFamilyF (w : Word) : Instr :=
  match (nnOf w).toNat with
  | 0x07 => .getDelay (xOf w)
  | 0x0A => .getKey (xOf w)
  | 0x15 => .setDelay (xOf w)
  | 0x18 => .setSound (xOf w)
  | 0x1E => .addi (xOf w)
  | 0x29 => .spri (xOf w)
  | 0x33 => .bcp (xOf w)
  | 0x55 => .dump (xOf w)
  | 0x65 => .load (xOf w)
  | _ => .noneInstr

/-- The decode procedure: select by the first nibble, then by the remaining ones. It is total and reads nothing
but the word (30_encoding R83, R84). -/
def decodeWord (w : Word) : Instr :=
  match opOf w with
  | 0x0 => decodeFamily0 w
  | 0x1 => .goto (nnnOf w)
  | 0x2 => .call (nnnOf w)
  | 0x3 => .eqConst (xOf w) (nnOf w)
  | 0x4 => .neqConst (xOf w) (nnOf w)
  | 0x5 => if nOf w = 0 then .eqReg (xOf w) (yOf w) else .noneInstr
  | 0x6 => .setConst (xOf w) (nnOf w)
  | 0x7 => .addConst (xOf w) (nnOf w)
  | 0x8 => decodeFamily8 w
  | 0x9 => if nOf w = 0 then .neqReg (xOf w) (yOf w) else .noneInstr
  | 0xA => .seti (nnnOf w)
  | 0xB => .jump (nnnOf w)
  | 0xC => .rand (xOf w) (nnOf w)
  | 0xD => .draw (xOf w) (yOf w) (nOf w)
  | 0xE => decodeFamilyE w
  | 0xF => decodeFamilyF w
  | _ => .noneInstr

/-- Why a byte list gives no instruction. The only case is that it is too short: every word decodes (30_encoding R83). -/
inductive DecodeError where
  | truncated (len : Nat)
  deriving DecidableEq, Repr

/-- The instruction word of two bytes, the first of them high-order (20_memory R52). -/
def wordOfBytes (hi lo : Byte) : Word := hi ++ lo

/-- The decoder over bytes: the instruction at the front and the bytes after it, or a refusal by name. -/
def decodeBytes : List Byte → Except DecodeError (Instr × List Byte)
  | hi :: lo :: rest => .ok (decodeWord (wordOfBytes hi lo), rest)
  | bytes => .error (.truncated bytes.length)

/-- The bytes of a word as memory holds them, high-order first (20_memory R52). -/
def bytesOfWord (w : Word) : List Byte := [w.extractLsb' 8 8, w.extractLsb' 0 8]

/-- An instruction word of the opcode table: every instruction is one 16-bit word, and the bits the table does not
give are 0. -/
def tableWord (nbits w : Nat) : Word := BitVec.ofNat 16 (w % 2 ^ nbits)

/-- What the decoder reads from an instruction whose bits are `w`, numbered as spec/opcode_table.json numbers them. -/
def decodeTableWord (nbits w : Nat) : Option Instr :=
  match decodeBytes (bytesOfWord (tableWord nbits w)) with
  | .ok (i, _) => some i
  | .error _ => none

/-- The word with the given nibble op and the 12-bit address (30_encoding R81, format A). -/
def formA (op : Nat) (nnn : Addr12) : Word := BitVec.ofNat 16 (op * 4096 + nnn.toNat)

/-- Format XK: op, x, and an 8-bit immediate or sub-opcode (30_encoding R81; format XF has a fixed low byte). -/
def formXK (op : Nat) (x : Fin 16) (nn : Byte) : Word := BitVec.ofNat 16 (op * 4096 + x.val * 256 + nn.toNat)

/-- Format XYN: op, x, y and a last nibble (30_encoding R81; format XY has a fixed last nibble). -/
def formXYN (op : Nat) (x y n : Fin 16) : Word :=
  BitVec.ofNat 16 (op * 4096 + x.val * 256 + y.val * 16 + n.val)

/-- The encoder, from the patterns of 30_encoding R84 and R90. NONE has no word of its own among the 17488 of R86:
the encoder writes 0xFFFF (DESIGN CHOICE, log entry 8). -/
def encode : Instr → Word
  | .halt => 0x0000
  | .clear => 0x00E0
  | .ret => 0x00EE
  | .routine nnn => formA 0x0 nnn
  | .goto nnn => formA 0x1 nnn
  | .call nnn => formA 0x2 nnn
  | .eqConst x nn => formXK 0x3 x nn
  | .neqConst x nn => formXK 0x4 x nn
  | .eqReg x y => formXYN 0x5 x y 0x0
  | .setConst x nn => formXK 0x6 x nn
  | .addConst x nn => formXK 0x7 x nn
  | .setReg x y => formXYN 0x8 x y 0x0
  | .orReg x y => formXYN 0x8 x y 0x1
  | .andReg x y => formXYN 0x8 x y 0x2
  | .xorReg x y => formXYN 0x8 x y 0x3
  | .addReg x y => formXYN 0x8 x y 0x4
  | .subReg x y => formXYN 0x8 x y 0x5
  | .bshiftRght x y => formXYN 0x8 x y 0x6
  | .subtract x y => formXYN 0x8 x y 0x7
  | .bshiftLeft x y => formXYN 0x8 x y 0xE
  | .neqReg x y => formXYN 0x9 x y 0x0
  | .seti nnn => formA 0xA nnn
  | .jump nnn => formA 0xB nnn
  | .rand x nn => formXK 0xC x nn
  | .draw x y n => formXYN 0xD x y n
  | .keyP x => formXK 0xE x 0x9E
  | .keyNp x => formXK 0xE x 0xA1
  | .getDelay x => formXK 0xF x 0x07
  | .getKey x => formXK 0xF x 0x0A
  | .setDelay x => formXK 0xF x 0x15
  | .setSound x => formXK 0xF x 0x18
  | .addi x => formXK 0xF x 0x1E
  | .spri x => formXK 0xF x 0x29
  | .bcp x => formXK 0xF x 0x33
  | .dump x => formXK 0xF x 0x55
  | .load x => formXK 0xF x 0x65
  | .noneInstr => 0xFFFF

/-- A row of the decode table: a word w selects it when `w & mask = fixed` and no earlier row did (30_encoding R84). -/
structure Row where
  mnemonic : String
  fixed : Word
  mask : Word
  deriving DecidableEq, Repr

/-- The row of each variant, transcribed from 30_encoding R84. -/
def rowOf : Instr → Row
  | .halt => ⟨"HALT", 0x0000, 0xFFFF⟩
  | .clear => ⟨"CLEAR", 0x00E0, 0xFFFF⟩
  | .ret => ⟨"RETURN", 0x00EE, 0xFFFF⟩
  | .routine _ => ⟨"ROUTINE", 0x0000, 0xF000⟩
  | .goto _ => ⟨"GOTO", 0x1000, 0xF000⟩
  | .call _ => ⟨"CALL", 0x2000, 0xF000⟩
  | .eqConst _ _ => ⟨"EQ", 0x3000, 0xF000⟩
  | .neqConst _ _ => ⟨"NEQ", 0x4000, 0xF000⟩
  | .eqReg _ _ => ⟨"EQ_REG", 0x5000, 0xF00F⟩
  | .setConst _ _ => ⟨"SET_CONST", 0x6000, 0xF000⟩
  | .addConst _ _ => ⟨"ADD_CONST", 0x7000, 0xF000⟩
  | .setReg _ _ => ⟨"SET_REG", 0x8000, 0xF00F⟩
  | .orReg _ _ => ⟨"OR", 0x8001, 0xF00F⟩
  | .andReg _ _ => ⟨"AND", 0x8002, 0xF00F⟩
  | .xorReg _ _ => ⟨"XOR", 0x8003, 0xF00F⟩
  | .addReg _ _ => ⟨"ADD_REG", 0x8004, 0xF00F⟩
  | .subReg _ _ => ⟨"SUB_REG", 0x8005, 0xF00F⟩
  | .bshiftRght _ _ => ⟨"BSHIFT_RGHT", 0x8006, 0xF00F⟩
  | .subtract _ _ => ⟨"SUBTRACT", 0x8007, 0xF00F⟩
  | .bshiftLeft _ _ => ⟨"BSHIFT_LEFT", 0x800E, 0xF00F⟩
  | .neqReg _ _ => ⟨"NEQ_REG", 0x9000, 0xF00F⟩
  | .seti _ => ⟨"SETI", 0xA000, 0xF000⟩
  | .jump _ => ⟨"JUMP", 0xB000, 0xF000⟩
  | .rand _ _ => ⟨"RAND", 0xC000, 0xF000⟩
  | .draw _ _ _ => ⟨"DRAW", 0xD000, 0xF000⟩
  | .keyP _ => ⟨"KEY_P", 0xE09E, 0xF0FF⟩
  | .keyNp _ => ⟨"KEY_NP", 0xE0A1, 0xF0FF⟩
  | .getDelay _ => ⟨"GET_DELAY", 0xF007, 0xF0FF⟩
  | .getKey _ => ⟨"GET_KEY", 0xF00A, 0xF0FF⟩
  | .setDelay _ => ⟨"SET_DELAY", 0xF015, 0xF0FF⟩
  | .setSound _ => ⟨"SET_SOUND", 0xF018, 0xF0FF⟩
  | .addi _ => ⟨"ADDI", 0xF01E, 0xF0FF⟩
  | .spri _ => ⟨"SPRI", 0xF029, 0xF0FF⟩
  | .bcp _ => ⟨"BCP", 0xF033, 0xF0FF⟩
  | .dump _ => ⟨"DUMP", 0xF055, 0xF0FF⟩
  | .load _ => ⟨"LOAD", 0xF065, 0xF0FF⟩
  | .noneInstr => ⟨"NONE", 0x0000, 0x0000⟩

/-- The variants in the table's priority order, each with operands of zeros (30_encoding R84, the column "#"). -/
def variants : List Instr :=
  [.halt, .clear, .ret, .routine 0, .goto 0, .call 0, .eqConst 0 0, .neqConst 0 0, .eqReg 0 0, .setConst 0 0,
    .addConst 0 0] ++
  [.setReg 0 0, .orReg 0 0, .andReg 0 0, .xorReg 0 0, .addReg 0 0, .subReg 0 0, .bshiftRght 0 0, .subtract 0 0,
    .bshiftLeft 0 0, .neqReg 0 0] ++
  [.seti 0, .jump 0, .rand 0 0, .draw 0 0 0, .keyP 0, .keyNp 0, .getDelay 0, .getKey 0, .setDelay 0, .setSound 0,
    .addi 0, .spri 0, .bcp 0, .dump 0, .load 0, .noneInstr]

/-- The decode table, row by row in priority order (30_encoding R84). -/
def decodeTable : List Row := variants.map rowOf

/-- The row a word selects: the first that matches (30_encoding R84). -/
def selectedRow (w : Word) : Option Row := decodeTable.find? fun r => w &&& r.mask == r.fixed

/-- The operands of a variant are the word's fields (30_encoding R82, the column "operands" of R84). -/
def Instr.operandsFrom (w : Word) : Instr → Prop
  | .routine nnn | .goto nnn | .call nnn | .seti nnn | .jump nnn => nnn = nnnOf w
  | .eqConst x nn | .neqConst x nn | .setConst x nn | .addConst x nn | .rand x nn => x = xOf w ∧ nn = nnOf w
  | .eqReg x y | .setReg x y | .orReg x y | .andReg x y | .xorReg x y | .addReg x y | .subReg x y
  | .bshiftRght x y | .subtract x y | .bshiftLeft x y | .neqReg x y => x = xOf w ∧ y = yOf w
  | .draw x y n => x = xOf w ∧ y = yOf w ∧ n = nOf w
  | .keyP x | .keyNp x | .getDelay x | .getKey x | .setDelay x | .setSound x | .addi x | .spri x | .bcp x => x = xOf w
  | .dump x | .load x => x = xOf w
  | .halt | .clear | .ret | .noneInstr => True

end Sys2Proof
end

