-- ==== Sys2Proof/Config.lean ====
section
/-! DEFINITION. What an implementation or the host fixes: the open parameters of spec/00_scope.md R8 as plain
data, the host's events, and the free values, which nothing in Lean can evaluate. -/

namespace Sys2Proof

/-- ARITH_VF_POLICY (42_alu R173): what ADD_REG, SUB_REG and SUBTRACT do to VF. -/
inductive ArithVfPolicy where
  | unchanged     -- they do not write VF (the default)
  | carryBorrow   -- they write the carry, or the absence of a borrow
  | any           -- they write an arbitrary byte
  deriving DecidableEq, Repr

/-- The open parameters that select a behaviour (00_scope R8). The machine carries one setting of them and
no step changes it, so a statement about every state is a statement about every setting. -/
structure Params where
  /-- ARITH_VF_POLICY (decision D5). -/
  arithVf : ArithVfPolicy
  /-- DRAW_COLLIDE_ZERO_BITS (decision D7): a sprite bit of 0 over a lit cell is a collision. -/
  collideZeroBits : Bool
  /-- DUMP_LOAD_INCLUSIVE (decision D9): operand x moves x + 1 registers, not x. -/
  dumpLoadInclusive : Bool
  deriving DecidableEq, Repr

/-- A key of the host's keyboard as the fixed keymap sees it (36_cycle_and_blocks R121). -/
inductive HostKey where
  | digit (d : Fin 10)    -- a numeric key 0 to 9
  | letter (l : Fin 6)    -- a letter A to F
  | other                 -- any other key: unrecognised
  deriving DecidableEq, Repr

/-- What the input collaborator can deliver at a poll point (36_cycle_and_blocks R112, R120 to R123). -/
inductive HostEvent where
  | keyDown (k : HostKey)
  | keyUp (k : HostKey)
  | quit
  | stepSignal            -- the "step" or "next" signal of the run loop
  deriving DecidableEq, Repr

/-- KEY_SCHEDULE beyond what the state schedules (00_scope R8, decisions D18 and D19): the events delivered at
the n-th poll point are FREE. Log entry 4. -/
opaque Config.pollEvents : Nat → List HostEvent

/-- TICK_SCHEDULE beyond what the state schedules (00_scope R8, decision D20): whether the n-th gap between
two cycles carries a tick is FREE. Log entry 4. -/
opaque Config.gapTicks : Nat → Bool

/-- RAND_SOURCE and every other `draw()` beyond what the state schedules (00_scope R8 and R11, decision D21):
the n-th drawn byte is FREE. Log entry 4. -/
opaque Config.freeByte : Nat → Byte

end Sys2Proof
end

