-- ==== Sys2Proof/Machine/Params.lean ====
section
/-! DEFINITION. The default setting of the open parameters (spec/00_scope.md R8). -/

namespace Sys2Proof.Machine

/-- The defaults of 00_scope R8 (decisions D5, D7 and D9): log entry 1. -/
def defaultParams : Params :=
  { arithVf := .unchanged, collideZeroBits := true, dumpLoadInclusive := true }

end Sys2Proof.Machine
end

