-- ==== Sys2Proof/Machine/State.lean ====
section
/-! DEFINITION. The state of the core (spec/10_state.md), the state after reset, and the reasons a step can stop. -/

namespace Sys2Proof.Machine

/-- The outcome of the most recent cycle (10_state R33, 60_exceptions R210): only in `running` can a cycle start. -/
inductive Status where
  | running
  | halted
  | faulted
  | cancelled
  deriving DecidableEq, Repr

/-- FAULT_CAUSE, in the order of the codes 0 to 6 of 60_exceptions R214. -/
inductive Cause where
  | none
  | pcRange          -- 1, AddressFault.PcRange
  | fetchRange       -- 2, AddressFault.FetchRange
  | dataRead         -- 3, AddressFault.DataRead
  | dataWrite        -- 4, AddressFault.DataWrite
  | stackOverflow    -- 5
  | stackUnderflow   -- 6
  deriving DecidableEq, Repr

/-- What one poll point yields to the core (36_cycle_and_blocks R112, R114): nothing, a key code, or quit. -/
inductive Poll where
  | nothing
  | key (k : Key)
  | quit
  deriving DecidableEq, Repr

/-- A free input of the step: the values the coming uses take, next first, and how many have been taken. When the
queue is empty the value is a free one of Config. The model's own, not the spec's state (log entry 4). -/
structure Feed (α : Type) where
  queue : List α
  taken : Nat
  deriving DecidableEq, Repr

/-- Memory: the cells that differ from what an unlisted address reads as, by strictly rising address. -/
abbrev Memory := List Host.Cell

/-- The framebuffer: 32 rows of 64 cells, `fb[y][x]` the cell in row y and column x, true is on (10_state R30). -/
abbrev FrameBuffer := Vector (Vector Bool fbWidth) fbHeight

/-- Everything the spec gives the machine (10_state), then the model's own fields. -/
structure State where
  /-- V[0] to V[15], V[15] being VF (R20, R22). -/
  v : Vector Byte 16
  /-- The index register I (R25). -/
  i : Word
  /-- The program counter (R23). -/
  pc : Word
  /-- The stack pointer: how many return addresses the call stack holds (R26). -/
  sp : Byte
  /-- The call stack (R27). -/
  stack : Vector Word stackDepth
  /-- The delay timer (R28). -/
  dt : Byte
  /-- The sound timer (R29). -/
  st : Byte
  /-- The framebuffer (R30). -/
  fb : FrameBuffer
  /-- The key latch K (R31). -/
  k : Option Key
  /-- The 4096 bytes of memory (R32). -/
  mem : Memory
  /-- STATUS (R33). -/
  status : Status
  /-- FAULT_CAUSE (R34). -/
  faultCause : Cause
  /-- FAULT_ADDR (R34). -/
  faultAddr : Nat
  /-- IR: the most recently fetched instruction word (R35). -/
  ir : Word
  /-- IR_ADDR: the address it was fetched from (R35). -/
  irAddr : Word
  /-- The register a key wait in progress will write; none outside a wait (36_cycle_and_blocks R114; log entry 5). -/
  wait : Option Reg
  /-- The setting of the open parameters; no step changes it (00_scope R8; log entry 1). -/
  params : Params
  /-- KEY_SCHEDULE: the host events of the coming poll points (00_scope R8; log entry 4). -/
  polls : Feed (List HostEvent)
  /-- TICK_SCHEDULE: whether the coming gaps between cycles carry a tick (00_scope R8; log entry 4). -/
  ticks : Feed Bool
  /-- RAND_SOURCE and every other `draw()`: the coming bytes (00_scope R8 and R11; log entry 4). -/
  draws : Feed Byte
  deriving DecidableEq, Repr

/-- Reset, before the host loads the font table and a program (70_reset_and_hazards R240). Memory lists nothing: every
address reads as zero (`Memory.unlisted`). The state after boot is `State.boot` (10_state R40, 70_reset_and_hazards
R242). -/
def State.reset : State where
  v := Vector.replicate 16 0
  i := 0
  pc := 512
  sp := 0
  stack := Vector.replicate stackDepth 0
  dt := 0
  st := 0
  fb := Vector.replicate fbHeight (Vector.replicate fbWidth false)
  k := none
  mem := []
  status := .running
  faultCause := .none
  faultAddr := 0
  ir := 0
  irAddr := 0
  wait := none
  params := defaultParams
  polls := ⟨[], 0⟩
  ticks := ⟨[], 0⟩
  draws := ⟨[], 0⟩

/-- Why the machine stops. A fault of the SPEC (an address or a stack fault) is not one of these: it is a next state
with STATUS = Faulted and the fault latches written (60_exceptions R221). -/
inductive Fault where
  /-- Raised by `step` when STATUS is not Running: the run has ended and no transition exists until reset
  (60_exceptions R222, 93 U14). Safe: the machine stops where the spec gives it no step. -/
  | runEnded (status : Status)
  deriving DecidableEq, Repr

/-- What the model has no meaning for. -/
inductive Refusal where
  /-- Raised by an arm of `exec` whose instruction has no meaning yet; no arm does. Safe. -/
  | notModelled (mnemonic : String)
  /-- Raised by CALL and RETURN when SP is above 12: no run from reset reaches such a state and the spec gives it no
  behaviour (93_implementation_defined section 1, last paragraph: refuse). Safe. -/
  | stackPointerBeyondDepth (sp : Byte)
  deriving DecidableEq, Repr

/-- The outcome of a step or of an instruction. -/
abbrev Outcome := Host.Outcome State Fault Refusal

end Sys2Proof.Machine
end

