-- ==== Sys2Proof/Machine/Operands.lean ====
section
/-! DEFINITION. The operand forms: widening (spec/30_encoding.md R82), the one data addressing mode (20_memory R68),
the register ranges of DUMP and LOAD (43_index_memory R184, R185), and decimal digits (R183). -/

namespace Sys2Proof.Machine

/-- A 12-bit address as a value of PC or I: zero-extended (30_encoding R82). -/
def wordOfAddr (nnn : Addr12) : Word := nnn.setWidth 16

/-- A register value as a 16-bit value: zero-extended (00_scope R9). -/
def wordOfByte (b : Byte) : Word := b.setWidth 16

/-- A key code as the 8-bit value a register holds (45_keyboard_timers R202). -/
def byteOfKey (k : Key) : Byte := BitVec.ofNat 8 k.val

/-- The base of every data access: I as a natural number, so that I + k does not wrap (20_memory R68). -/
def State.base (s : State) : Nat := s.i.toNat

/-- The lowest address of 4096 or more that an access from `base` upwards meets, when it meets one (60_exceptions
R215). -/
def lowestOffending (base : Nat) : Nat := max base memSize

/-- How many registers DUMP x and LOAD x move: x + 1 or x (43_index_memory R184, DUMP_LOAD_INCLUSIVE). -/
def State.blockLength (s : State) (x : Count) : Nat :=
  if s.params.dumpLoadInclusive then x.val + 1 else x.val

/-- The decimal digits of a register value, hundreds first (43_index_memory R183). -/
def decimalDigits (b : Byte) : List Byte :=
  [BitVec.ofNat 8 (b.toNat / 100), BitVec.ofNat 8 (b.toNat / 10 % 10), BitVec.ofNat 8 (b.toNat % 10)]

/-- The address of a font glyph: the value times 5, in 16 bits, not masked (43_index_memory R182, decision D11). -/
def glyphAddress (b : Byte) : Word := wordOfByte b * 5

end Sys2Proof.Machine
end

