-- ==== Sys2Proof/Machine/Ops.lean ====
section
/-! DEFINITION. The named operations over the state: one home for each register, the memory block, the call stack,
the timers, the framebuffer, the key latch and the free inputs (spec/36_cycle_and_blocks.md R101 to R116), raising a
fault (60_exceptions R215, R216, R221), and retiring (36 R109). -/

namespace Sys2Proof.Machine

/-! ## Memory (20_memory, 36 R101) -/

/-- What an address that memory does not list reads as: zero, the contents at reset (70_reset_and_hazards R240, decision
D13; log entry 3). -/
def Memory.unlisted (_a : Nat) : Byte := 0

/-- The byte at an address. -/
def Memory.byteAt : Memory → Nat → Byte
  | [], a => Memory.unlisted a
  | (b, w) :: m, a => if a = b then w else Memory.byteAt m a

/-- Memory with one byte replaced, in canonical form: addresses strictly rising, and no cell that says what an unlisted
address says. -/
def Memory.put : Memory → Nat → Byte → Memory
  | [], a, x => if x = Memory.unlisted a then [] else [(a, x)]
  | (b, w) :: m, a, x =>
    if a < b then
      if x = Memory.unlisted a then (b, w) :: m else (a, x) :: (b, w) :: m
    else if a = b then
      if x = Memory.unlisted a then m else (a, x) :: m
    else (b, w) :: Memory.put m a x

/-- The canonical form: strictly rising addresses below 4096, none of which holds what it would read as unlisted. -/
abbrev Memory.wf (m : Memory) : Prop :=
  m.Pairwise (fun c d => c.1 < d.1) ∧ ∀ c ∈ m, c.1 < memSize ∧ c.2 ≠ Memory.unlisted c.1

/-- `read(address)`: none is the AddressFault of an address of 4096 or more (36_cycle_and_blocks R101, 20_memory R51). -/
def Memory.read (m : Memory) (a : Nat) : Option Byte :=
  if a < memSize then some (m.byteAt a) else none

/-- `write(address, byte)`: none is the AddressFault of an address of 4096 or more (36_cycle_and_blocks R101). -/
def Memory.write (m : Memory) (a : Nat) (x : Byte) : Option Memory :=
  if a < memSize then some (m.put a x) else none

/-- `n` reads at ascending addresses from `a`: none as soon as one of them faults (20_memory R53, R55). -/
def Memory.readSpan (m : Memory) : Nat → Nat → Option (List Byte)
  | _, 0 => some []
  | a, n + 1 =>
    match m.read a, m.readSpan (a + 1) n with
    | some x, some xs => some (x :: xs)
    | _, _ => none

/-- Writes at ascending addresses from `a`: none as soon as one of them faults, and then no write has happened, since
the memory written so far is dropped (20_memory R53, R55; 60_exceptions R216, decision D10). -/
def Memory.writeSpan (m : Memory) : Nat → List Byte → Option Memory
  | _, [] => some m
  | a, x :: xs =>
    match m.write a x with
    | some m' => Memory.writeSpan m' (a + 1) xs
    | none => none

/-! ## Registers -/

/-- `reg_read(i)`: every index is valid (36_cycle_and_blocks R102). -/
def State.reg (s : State) (x : Reg) : Byte := s.v[x]

/-- `reg_write(i, v)` (36_cycle_and_blocks R102). -/
def State.setReg (s : State) (x : Reg) (b : Byte) : State := { s with v := s.v.set x b }

/-- Write V[0], V[1], ... from a list of bytes, ascending (43_index_memory R185); the registers past its end keep their
values. -/
def State.setRegs (s : State) (bytes : List Byte) : State :=
  { s with v := Vector.ofFn fun x : Reg => bytes.getD x.val (s.reg x) }

/-- The first `n` registers, V[0] first (43_index_memory R184). -/
def State.firstRegs (s : State) (n : Nat) : List Byte := s.v.toList.take n

/-- Write the index register (10_state R25). -/
def State.setI (s : State) (a : Word) : State := { s with i := a }

/-- Write the program counter (10_state R23). -/
def State.setPc (s : State) (a : Word) : State := { s with pc := a }

/-- Write memory. -/
def State.setMem (s : State) (m : Memory) : State := { s with mem := m }

/-- Write the framebuffer. -/
def State.setFb (s : State) (fb : FrameBuffer) : State := { s with fb := fb }

/-- Write STATUS (10_state R33). -/
def State.setStatus (s : State) (st : Status) : State := { s with status := st }

/-- Begin or end a key wait (36_cycle_and_blocks R114). -/
def State.setWait (s : State) (w : Option Reg) : State := { s with wait := w }

/-- Write the stack and its pointer together. -/
def State.setStack (s : State) (stack : Vector Word stackDepth) (sp : Byte) : State :=
  { s with stack := stack, sp := sp }

/-! ## Program counter: retire and skip (36 R109, 41_skips) -/

/-- `retire`: the automatic increment (36_cycle_and_blocks R109). -/
def State.retire (s : State) : State := s.setPc (s.pc + 2)

/-- `skip` when the condition holds: the extra increment a comparison applies before retiring (41_skips). -/
def State.skipIf (s : State) (c : Bool) : State := if c then s.setPc (s.pc + 2) else s

/-! ## Taking a fault (60_exceptions R215, R216, R221) -/

/-- `raise F(info)`: STATUS becomes Faulted, FAULT_CAUSE and FAULT_ADDR are written, nothing else changes: no handler,
no saved state, no retire (60_exceptions R215, R216, R221; 00_scope R11). There is no return from it (R223). -/
def State.raise (s : State) (c : Cause) (addr : Nat) : State :=
  { s with status := .faulted, faultCause := c, faultAddr := addr }

/-- The numeric code of a cause (60_exceptions R214). -/
def causeCode : Cause → Nat
  | .none => 0
  | .pcRange => 1
  | .fetchRange => 2
  | .dataRead => 3
  | .dataWrite => 4
  | .stackOverflow => 5
  | .stackUnderflow => 6

/-! ## The call stack (36 R103) -/

/-- `push(v)`: StackOverflow at SP = 12 (36_cycle_and_blocks R103, decision D3); a refusal by name above it, where the spec
gives no behaviour. The error is the outcome the instruction ends with. -/
def State.push (s : State) (w : Word) : Except Outcome State :=
  if s.sp.toNat = stackDepth then .error (.next (s.raise .stackOverflow 0))
  else if h : s.sp.toNat < stackDepth then .ok (s.setStack (s.stack.set s.sp.toNat w h) (s.sp + 1))
  else .error (.refused (.stackPointerBeyondDepth s.sp))

/-- `pop()`: StackUnderflow at SP = 0 (36_cycle_and_blocks R103, decision D4); the entry read stays in place (10_state R27);
a refusal by name above SP = 12. -/
def State.pop (s : State) : Except Outcome (Word × State) :=
  if s.sp.toNat = 0 then .error (.next (s.raise .stackUnderflow 0))
  else if h : s.sp.toNat - 1 < stackDepth then .ok (s.stack[s.sp.toNat - 1], s.setStack s.stack (s.sp - 1))
  else .error (.refused (.stackPointerBeyondDepth s.sp))

/-! ## Timers (36 R104, R116) -/

/-- `load(v)` of the delay timer (36_cycle_and_blocks R104). -/
def State.setDt (s : State) (b : Byte) : State := { s with dt := b }

/-- `load(v)` of the sound timer (36_cycle_and_blocks R104). -/
def State.setSt (s : State) (b : Byte) : State := { s with st := b }

/-- One timer after one tick: down by 1 with a floor of 0 (36_cycle_and_blocks R104). -/
def tickTimer (t : Byte) : Byte := if t = 0 then 0 else t - 1

/-- The host's tick operation: both timers together, nothing else (36_cycle_and_blocks R116). -/
def State.tick (s : State) : State := { s with dt := tickTimer s.dt, st := tickTimer s.st }

/-! ## The framebuffer (36 R105, 44_display) -/

/-- Whether the cell in column x and row y is on, the coordinates taken modulo 64 and 32 (10_state R30). -/
def FrameBuffer.cell (fb : FrameBuffer) (x y : Nat) : Bool :=
  (fb[y % fbHeight]'(Nat.mod_lt _ (by decide)))[x % fbWidth]'(Nat.mod_lt _ (by decide))

/-- The framebuffer with one cell replaced, the coordinates taken modulo 64 and 32. -/
def FrameBuffer.setCell (fb : FrameBuffer) (x y : Nat) (on : Bool) : FrameBuffer :=
  fb.set (y % fbHeight)
    ((fb[y % fbHeight]'(Nat.mod_lt _ (by decide))).set (x % fbWidth) on (Nat.mod_lt _ (by decide)))
    (Nat.mod_lt _ (by decide))

/-- `clear()`: every cell off (36_cycle_and_blocks R105). -/
def FrameBuffer.cleared : FrameBuffer := Vector.replicate fbHeight (Vector.replicate fbWidth false)

/-- `draw_pixel(x, y, on)`: XOR into the wrapped cell, and whether it was on before (36_cycle_and_blocks R105). -/
def FrameBuffer.drawPixel (fb : FrameBuffer) (x y : Nat) (on : Bool) : Bool × FrameBuffer :=
  (fb.cell x y, fb.setCell x y (fb.cell x y ^^ on))

/-- A framebuffer being drawn on, and whether a collision has occurred so far (44_display R191: `hit`). -/
abbrev Canvas := FrameBuffer × Bool

/-- One sprite bit plotted (44_display R191, the loop body): a lit cell collides under a sprite bit of 1, and under a bit
of 0 if DRAW_COLLIDE_ZERO_BITS (`zeroBits`). -/
def plotBit (zeroBits : Bool) (x y : Nat) (bit : Bool) (c : Canvas) : Canvas :=
  let p := c.1.drawPixel x y bit
  (p.2, c.2 || (p.1 && (bit || zeroBits)))

/-- The columns `7 - left + 1` to 7 of a sprite row, most significant bit first (44_display R191: columns). -/
def plotRowFrom (zeroBits : Bool) (x0 y : Nat) (b : Byte) : Nat → Canvas → Canvas
  | 0, c => c
  | left + 1, c => plotRowFrom zeroBits x0 y b left (plotBit zeroBits (x0 + (7 - left)) y (b.getLsbD left) c)

/-- One sprite row: its eight bits (44_display R191). -/
def plotRow (zeroBits : Bool) (x0 y : Nat) (b : Byte) (c : Canvas) : Canvas := plotRowFrom zeroBits x0 y b 8 c

/-- `blit_sprite`: the rows top to bottom (44_display R191, 36_cycle_and_blocks R105). -/
def blitSprite (zeroBits : Bool) (x0 : Nat) : Nat → List Byte → Canvas → Canvas
  | _, [], c => c
  | y, b :: bs, c => blitSprite zeroBits x0 (y + 1) bs (plotRow zeroBits x0 y b c)

/-! ## The free inputs (00_scope R8; log entry 4) -/

/-- The next value of a free input: the scheduled one, else the free value of its number. -/
def Feed.head {α : Type} (free : Nat → α) (f : Feed α) : α :=
  match f.queue with
  | [] => free f.taken
  | a :: _ => a

/-- A free input after one value has been taken. -/
def Feed.advance {α : Type} (f : Feed α) : Feed α := ⟨f.queue.tail, f.taken + 1⟩

/-- The byte the next `draw()` yields (00_scope R11, 36_cycle_and_blocks R115). -/
def State.drawnByte (s : State) : Byte := s.draws.head Config.freeByte

/-- The state after one `draw()`. -/
def State.afterDraw (s : State) : State := { s with draws := s.draws.advance }

/-! ## The keyboard interface (36 R112 to R114, R121 to R123) -/

/-- The fixed keymap: 0 to 9 directly, A to F to 10 to 15, any other key unrecognised (36_cycle_and_blocks R121). -/
def keyCode : HostKey → Option Key
  | .digit d => some ⟨d.val, by omega⟩
  | .letter l => some ⟨10 + l.val, by omega⟩
  | .other => none

/-- What one poll point yields of the events delivered there, in the order of their arrival: a quit wins over any key, of
several key-downs the last counts, and key-ups, unrecognised keys and step signals change nothing (36_cycle_and_blocks
R112, R123; 60_exceptions R220). -/
def pollOf : List HostEvent → Poll
  | [] => .nothing
  | .quit :: _ => .quit
  | .keyDown k :: es =>
    match pollOf es, keyCode k with
    | .nothing, some c => .key c
    | later, _ => later
  | .keyUp _ :: es => pollOf es
  | .stepSignal :: es => pollOf es

/-- What the next poll point yields. -/
def State.nextPoll (s : State) : Poll := pollOf (s.polls.head Config.pollEvents)

/-- The state after one poll point has been taken. -/
def State.afterPoll (s : State) : State := { s with polls := s.polls.advance }

/-- Write the key latch: `clear()` with none, the start-of-cycle poll with a code (36_cycle_and_blocks R112). -/
def State.setK (s : State) (k : Option Key) : State := { s with k := k }

/-- `is_pressed(code)`: the code is the full 8-bit value (36_cycle_and_blocks R113, decision D25). -/
def State.isPressed (s : State) (code : Byte) : Bool :=
  match s.k with
  | none => false
  | some c => c.val == code.toNat

/-! ## The host's boot moves (20_memory R59, R60; 36 R118) -/

/-- A memory with bytes stored at ascending addresses from `a`, those at 4096 and above dropped. -/
def Memory.fill (m : Memory) : Nat → List Byte → Memory
  | _, [] => m
  | a, x :: xs => Memory.fill ((m.write a x).getD m) (a + 1) xs

/-- The bytes of the default FONT: 16 glyphs of 5 bytes (20_memory R58; PRESUMED, log entry 2). -/
def fontTable : List Byte :=
  [0xF0, 0x90, 0x90, 0x90, 0xF0,  0x20, 0x60, 0x20, 0x20, 0x70] ++
  [0xF0, 0x10, 0xF0, 0x80, 0xF0,  0xF0, 0x10, 0xF0, 0x10, 0xF0] ++
  [0x90, 0x90, 0xF0, 0x10, 0x10,  0xF0, 0x80, 0xF0, 0x10, 0xF0] ++
  [0xF0, 0x80, 0xF0, 0x90, 0xF0,  0xF0, 0x10, 0x20, 0x40, 0x40] ++
  [0xF0, 0x90, 0xF0, 0x90, 0xF0,  0xF0, 0x90, 0xF0, 0x10, 0xF0] ++
  [0xF0, 0x90, 0xF0, 0x90, 0x90,  0xE0, 0x90, 0xE0, 0x90, 0xE0] ++
  [0xF0, 0x80, 0x80, 0x80, 0xF0,  0xE0, 0x90, 0x90, 0x90, 0xE0] ++
  [0xF0, 0x80, 0xF0, 0x80, 0xF0,  0xF0, 0x80, 0xF0, 0x80, 0x80]

/-- The default setting of the parameter FONT (00_scope R8, 20_memory R58, decision D14). -/
def defaultFont : Vector Byte 80 := ⟨fontTable.toArray, rfl⟩

/-- `load_font_table()` for the parameter FONT, 80 bytes (20_memory R59). -/
def State.loadFontTable (s : State) (font : Vector Byte 80) : State := s.setMem (s.mem.fill 0 font.toList)

/-- PROG_BASE (00_scope R7). -/
abbrev progBase : Nat := 512

/-- PROG_MAX (00_scope R7). -/
abbrev progMax : Nat := 3584

/-- `load_program(bytes)`: at offset 512, truncated silently to 3584 bytes (20_memory R60). -/
def State.loadProgram (s : State) (image : List Byte) : State := s.setMem (s.mem.fill progBase (image.take progMax))

/-- Boot: reset, the font table, then the program image (36_cycle_and_blocks R118, 70_reset_and_hazards R242). The result is
the table of 10_state R40. -/
def State.boot (font : Vector Byte 80) (image : List Byte) : State :=
  (State.reset.loadFontTable font).loadProgram image

end Sys2Proof.Machine
end

