-- ==== Sys2Proof/Machine/Flags.lean ====
section
/-! DEFINITION. Every flag computation of the spec: the flag register is V[15] (spec/10_state.md R22), a flag write
stores the byte 0 or 1, and these are all the writes there are. -/

namespace Sys2Proof.Machine

/-- A flag as the 8-bit value a flag write stores (10_state R22). -/
def flagByte (b : Bool) : Byte := if b then 1 else 0

/-- The flag of BSHIFT_RGHT: bit 7, the most significant (42_alu R168, R176). -/
def shiftRightFlag (b : Byte) : Byte := flagByte (b.getLsbD 7)

/-- The flag of BSHIFT_LEFT: bit 0, the least significant (42_alu R170, R176). -/
def shiftLeftFlag (b : Byte) : Byte := flagByte (b.getLsbD 0)

/-- The carry of an addition under the policy carry_borrow: the unreduced sum exceeds 255 (42_alu R173). -/
def addCarry (a b : Byte) : Bool := 255 < a.toNat + b.toNat

/-- The absence of a borrow in a - b under the policy carry_borrow (42_alu R173). -/
def noBorrow (a b : Byte) : Bool := b.toNat ≤ a.toNat

/-- The flag write of ADD_REG, SUB_REG and SUBTRACT, after the result has been written: none, the given flag, or an
arbitrary byte, as ARITH_VF_POLICY says (42_alu R173, decision D5). -/
def State.writeArithFlag (s : State) (flag : Bool) : State :=
  match s.params.arithVf with
  | .unchanged => s
  | .carryBorrow => s.setReg flagReg (flagByte flag)
  | .any => s.afterDraw.setReg flagReg s.drawnByte

/-- The flag write of DRAW: 1 on a collision, otherwise no write at all (44_display R191). -/
def State.writeCollision (s : State) (hit : Bool) : State := if hit then s.setReg flagReg 1 else s

end Sys2Proof.Machine
end

