-- ==== Sys2Proof/Machine/Alu.lean ====
section
/-! DEFINITION. Register arithmetic, logic, shifts and RAND (spec/42_alu.md R160 to R176). Arithmetic is modulo 256
and unsigned (R172); the result is computed from the values before the instruction (R175), the shifts excepted. -/

namespace Sys2Proof.Machine

/-- SET_CONST Vx, nn (42_alu R160). -/
def execSetConst (x : Reg) (nn : Byte) (s : State) : Outcome := .next (s.setReg x nn).retire

/-- ADD_CONST Vx, nn: wraps, no flag (42_alu R161). -/
def execAddConst (x : Reg) (nn : Byte) (s : State) : Outcome := .next (s.setReg x (s.reg x + nn)).retire

/-- SET_REG Vx, Vy (42_alu R162). -/
def execSetReg (x y : Reg) (s : State) : Outcome := .next (s.setReg x (s.reg y)).retire

/-- OR Vx, Vy: VF is not cleared (42_alu R163). -/
def execOr (x y : Reg) (s : State) : Outcome := .next (s.setReg x (s.reg x ||| s.reg y)).retire

/-- AND Vx, Vy: VF is not cleared (42_alu R164). -/
def execAnd (x y : Reg) (s : State) : Outcome := .next (s.setReg x (s.reg x &&& s.reg y)).retire

/-- XOR Vx, Vy: VF is not cleared (42_alu R165). -/
def execXor (x y : Reg) (s : State) : Outcome := .next (s.setReg x (s.reg x ^^^ s.reg y)).retire

/-- ADD_REG Vx, Vy: the sum, then the flag write of ARITH_VF_POLICY (42_alu R166, R173). -/
def execAddReg (x y : Reg) (s : State) : Outcome :=
  .next ((s.setReg x (s.reg x + s.reg y)).writeArithFlag (addCarry (s.reg x) (s.reg y))).retire

/-- SUB_REG Vx, Vy: V[x] minus V[y], then the flag write of ARITH_VF_POLICY (42_alu R167, R173). -/
def execSubReg (x y : Reg) (s : State) : Outcome :=
  .next ((s.setReg x (s.reg x - s.reg y)).writeArithFlag (noBorrow (s.reg x) (s.reg y))).retire

/-- SUBTRACT Vx, Vy: V[y] minus V[x], then the flag write of ARITH_VF_POLICY (42_alu R169, R173). -/
def execSubtract (x y : Reg) (s : State) : Outcome :=
  .next ((s.setReg x (s.reg y - s.reg x)).writeArithFlag (noBorrow (s.reg y) (s.reg x))).retire

/-- BSHIFT_RGHT Vx, Vy: VF gets bit 7 of V[x]; then V[x], read again, shifts right by 1; y is ignored (42_alu R168, R176,
decision D6). -/
def execBshiftRght (x _y : Reg) (s : State) : Outcome :=
  let s' := s.setReg flagReg (shiftRightFlag (s.reg x))
  .next (s'.setReg x (s'.reg x >>> 1)).retire

/-- BSHIFT_LEFT Vx, Vy: VF gets bit 0 of V[x]; then V[x], read again, shifts left by 1; y is ignored (42_alu R170, R176,
decision D6). -/
def execBshiftLeft (x _y : Reg) (s : State) : Outcome :=
  let s' := s.setReg flagReg (shiftLeftFlag (s.reg x))
  .next (s'.setReg x (s'.reg x <<< 1)).retire

/-- RAND Vx, nn: one drawn byte, masked (42_alu R171). -/
def execRand (x : Reg) (nn : Byte) (s : State) : Outcome :=
  .next (s.afterDraw.setReg x (s.drawnByte &&& nn)).retire

end Sys2Proof.Machine
end

