-- ==== Sys2Proof/Machine/Control.lean ====
section
/-! DEFINITION. Stop, no-ops and control transfer: HALT, ROUTINE, NONE, RETURN, GOTO, CALL, JUMP
(spec/40_control_flow.md R130 to R136). -/

namespace Sys2Proof.Machine

/-- HALT: STATUS becomes Halted, and it retires (40_control_flow R130, decision D15). -/
def execHalt (s : State) : Outcome := .next (s.setStatus .halted).retire

/-- ROUTINE nnn: the address is ignored (40_control_flow R131). -/
def execRoutine (_nnn : Addr12) (s : State) : Outcome := .next s.retire

/-- NONE: an unrecognised word is a no-operation, not an error (40_control_flow R132, 60_exceptions R226). -/
def execNone (s : State) : Outcome := .next s.retire

/-- RETURN: pops the address of the matching CALL and retires past it (40_control_flow R133, decisions D2 and D4). -/
def execReturn (s : State) : Outcome :=
  match s.pop with
  | .ok (a, s') => .next (s'.setPc a).retire
  | .error stop => stop

/-- GOTO nnn: suppresses retire (40_control_flow R134). -/
def execGoto (nnn : Addr12) (s : State) : Outcome := .next (s.setPc (wordOfAddr nnn))

/-- CALL nnn: pushes its own address and suppresses retire (40_control_flow R135, decisions D2 and D3). -/
def execCall (nnn : Addr12) (s : State) : Outcome :=
  match s.push s.pc with
  | .ok s' => .next (s'.setPc (wordOfAddr nnn))
  | .error stop => stop

/-- JUMP nnn: V[0] plus nnn in 16 bits, not reduced to 12; suppresses retire (40_control_flow R136). -/
def execJump (nnn : Addr12) (s : State) : Outcome := .next (s.setPc (wordOfByte (s.reg 0) + wordOfAddr nnn))

end Sys2Proof.Machine
end

