-- ==== Sys2Proof/Machine/Display.lean ====
section
/-! DEFINITION. The display instructions CLEAR and DRAW (spec/44_display.md R190 to R195). -/

namespace Sys2Proof.Machine

/-- CLEAR (44_display R190). -/
def execClear (s : State) : Outcome := .next (s.setFb FrameBuffer.cleared).retire

/-- DRAW Vx, Vy, n: n rows read at I, plotted by exclusive or at (V[x], V[y]) with wrap, VF set to 1 on a collision and
otherwise not written; the coordinates are latched before any write; a row at 4096 or above takes the DataRead fault with
nothing drawn (44_display R191 to R195, decisions D7, D8 and D10). -/
def execDraw (x y : Reg) (n : Count) (s : State) : Outcome :=
  match s.mem.readSpan s.base n.val with
  | some rows =>
    let c := blitSprite s.params.collideZeroBits (s.reg x).toNat (s.reg y).toNat rows (s.fb, false)
    .next ((s.setFb c.1).writeCollision c.2).retire
  | none => .next (s.raise .dataRead (lowestOffending s.base))

end Sys2Proof.Machine
end

