-- ==== Sys2Proof/Machine/Index.lean ====
section
/-! DEFINITION. The index register and the memory transfers SETI, ADDI, SPRI, BCP, DUMP, LOAD
(spec/43_index_memory.md R180 to R185). I is never changed by BCP, DUMP or LOAD (decision D9). -/

namespace Sys2Proof.Machine

/-- SETI nnn (43_index_memory R180). -/
def execSeti (nnn : Addr12) (s : State) : Outcome := .next (s.setI (wordOfAddr nnn)).retire

/-- ADDI Vx: wraps at 16 bits, no flag, no fault (43_index_memory R181). -/
def execAddi (x : Reg) (s : State) : Outcome := .next (s.setI (s.i + wordOfByte (s.reg x))).retire

/-- SPRI Vx: V[x] times 5 in 16 bits, V[x] not masked (43_index_memory R182, decision D11). -/
def execSpri (x : Reg) (s : State) : Outcome := .next (s.setI (glyphAddress (s.reg x))).retire

/-- Store bytes upwards from I and retire, or take the DataWrite fault with nothing stored (43_index_memory R183, R184;
60_exceptions R215, R216). -/
def State.storeAtIndex (s : State) (bytes : List Byte) : Outcome :=
  match s.mem.writeSpan s.base bytes with
  | some m => .next (s.setMem m).retire
  | none => .next (s.raise .dataWrite (lowestOffending s.base))

/-- BCP Vx: the three decimal digits at I, I + 1, I + 2 (43_index_memory R183). -/
def execBcp (x : Reg) (s : State) : Outcome := s.storeAtIndex (decimalDigits (s.reg x))

/-- DUMP x: the first registers at I upwards (43_index_memory R184). -/
def execDump (x : Count) (s : State) : Outcome := s.storeAtIndex (s.firstRegs (s.blockLength x))

/-- LOAD x: the first registers from I upwards, or the DataRead fault with nothing written (43_index_memory R185). -/
def execLoad (x : Count) (s : State) : Outcome :=
  match s.mem.readSpan s.base (s.blockLength x) with
  | some bytes => .next (s.setRegs bytes).retire
  | none => .next (s.raise .dataRead (lowestOffending s.base))

end Sys2Proof.Machine
end

