-- ==== Sys2Proof/Machine/Input.lean ====
section
/-! DEFINITION. The keyboard and timer instructions KEY_P, KEY_NP, GET_KEY, GET_DELAY, SET_DELAY, SET_SOUND
(spec/45_keyboard_timers.md R200 to R205). -/

namespace Sys2Proof.Machine

/-- KEY_P Vx (45_keyboard_timers R200). -/
def execKeyP (x : Reg) (s : State) : Outcome := .next (s.skipIf (s.isPressed (s.reg x))).retire

/-- KEY_NP Vx (45_keyboard_timers R201). -/
def execKeyNp (x : Reg) (s : State) : Outcome := .next (s.skipIf (!s.isPressed (s.reg x))).retire

/-- What one poll of the key wait does: nothing holds, a key is stored and the instruction retires, quit ends the run
with the instruction not carried out (45_keyboard_timers R202, 36_cycle_and_blocks R114 and R122). The latch K plays no
part (decision D19). -/
def State.keyWaitPoll (s : State) (x : Reg) : Poll → State
  | .nothing => s.setWait (some x)
  | .key k => ((s.setReg x (byteOfKey k)).setWait none).retire
  | .quit => (s.setStatus .cancelled).setWait none

/-- GET_KEY Vx: one poll point of its wait; while the wait lasts each further poll is a step of its own
(45_keyboard_timers R202; log entry 5). -/
def execGetKey (x : Reg) (s : State) : Outcome := .next (s.afterPoll.keyWaitPoll x s.nextPoll)

/-- GET_DELAY Vx (45_keyboard_timers R203). -/
def execGetDelay (x : Reg) (s : State) : Outcome := .next (s.setReg x s.dt).retire

/-- SET_DELAY Vx (45_keyboard_timers R204). -/
def execSetDelay (x : Reg) (s : State) : Outcome := .next (s.setDt (s.reg x)).retire

/-- SET_SOUND Vx (45_keyboard_timers R205). -/
def execSetSound (x : Reg) (s : State) : Outcome := .next (s.setSt (s.reg x)).retire

end Sys2Proof.Machine
end

