-- ==== Sys2Proof/Machine/Skips.lean ====
section
/-! DEFINITION. The conditional skips EQ, NEQ, EQ_REG, NEQ_REG (spec/41_skips.md R150 to R153). -/

namespace Sys2Proof.Machine

/-- EQ Vx, nn (41_skips R150). -/
def execEq (x : Reg) (nn : Byte) (s : State) : Outcome := .next (s.skipIf (s.reg x == nn)).retire

/-- NEQ Vx, nn (41_skips R151). -/
def execNeq (x : Reg) (nn : Byte) (s : State) : Outcome := .next (s.skipIf (s.reg x != nn)).retire

/-- EQ_REG Vx, Vy (41_skips R152). -/
def execEqReg (x y : Reg) (s : State) : Outcome := .next (s.skipIf (s.reg x == s.reg y)).retire

/-- NEQ_REG Vx, Vy (41_skips R153). -/
def execNeqReg (x y : Reg) (s : State) : Outcome := .next (s.skipIf (s.reg x != s.reg y)).retire

end Sys2Proof.Machine
end

