-- ==== Sys2Proof/Machine/Dispatch.lean ====
section
/-! DEFINITION. The execute step of the cycle: one arm per constructor of Instr (spec/36_cycle_and_blocks.md R106,
steps 6 and 7). -/

namespace Sys2Proof.Machine

def exec (i : Instr) (s : State) : Host.Outcome State Fault Refusal :=
  match i with
  | .halt => Sys2Proof.Machine.execHalt s
  | .clear => Sys2Proof.Machine.execClear s
  | .ret => Sys2Proof.Machine.execReturn s
  | .routine nnn => Sys2Proof.Machine.execRoutine nnn s
  | .goto nnn => Sys2Proof.Machine.execGoto nnn s
  | .call nnn => Sys2Proof.Machine.execCall nnn s
  | .eqConst x nn => Sys2Proof.Machine.execEq x nn s
  | .neqConst x nn => Sys2Proof.Machine.execNeq x nn s
  | .eqReg x y => Sys2Proof.Machine.execEqReg x y s
  | .setConst x nn => Sys2Proof.Machine.execSetConst x nn s
  | .addConst x nn => Sys2Proof.Machine.execAddConst x nn s
  | .setReg x y => Sys2Proof.Machine.execSetReg x y s
  | .orReg x y => Sys2Proof.Machine.execOr x y s
  | .andReg x y => Sys2Proof.Machine.execAnd x y s
  | .xorReg x y => Sys2Proof.Machine.execXor x y s
  | .addReg x y => Sys2Proof.Machine.execAddReg x y s
  | .subReg x y => Sys2Proof.Machine.execSubReg x y s
  | .bshiftRght x y => Sys2Proof.Machine.execBshiftRght x y s
  | .subtract x y => Sys2Proof.Machine.execSubtract x y s
  | .bshiftLeft x y => Sys2Proof.Machine.execBshiftLeft x y s
  | .neqReg x y => Sys2Proof.Machine.execNeqReg x y s
  | .seti nnn => Sys2Proof.Machine.execSeti nnn s
  | .jump nnn => Sys2Proof.Machine.execJump nnn s
  | .rand x nn => Sys2Proof.Machine.execRand x nn s
  | .draw x y n => Sys2Proof.Machine.execDraw x y n s
  | .keyP x => Sys2Proof.Machine.execKeyP x s
  | .keyNp x => Sys2Proof.Machine.execKeyNp x s
  | .getDelay x => Sys2Proof.Machine.execGetDelay x s
  | .getKey x => Sys2Proof.Machine.execGetKey x s
  | .setDelay x => Sys2Proof.Machine.execSetDelay x s
  | .setSound x => Sys2Proof.Machine.execSetSound x s
  | .addi x => Sys2Proof.Machine.execAddi x s
  | .spri x => Sys2Proof.Machine.execSpri x s
  | .bcp x => Sys2Proof.Machine.execBcp x s
  | .dump x => Sys2Proof.Machine.execDump x s
  | .load x => Sys2Proof.Machine.execLoad x s
  | .noneInstr => Sys2Proof.Machine.execNone s

end Sys2Proof.Machine
end

