-- ==== Sys2Proof/Machine/Cycle.lean ====
section
/-! DEFINITION. The cycle (spec/36_cycle_and_blocks.md R106): key-latch clear, poll, program-counter check, fetch, decode,
execute, and the gap after it in which the host may tick; one poll of a key wait in progress; and a word placed where
the next cycle fetches. -/

namespace Sys2Proof.Machine

/-- The program-counter check and the fetch: two byte reads, the first high-order, then IR and IR_ADDR. PC does not
move. A PC of 4096 or more is PcRange, one of 4095 is FetchRange, and then IR and IR_ADDR keep their values
(36_cycle_and_blocks R107, 60_exceptions R217). The error is the faulted state the cycle ends in. -/
def State.fetch (s : State) : Except State State :=
  match s.mem.read s.pc.toNat, s.mem.read (s.pc.toNat + 1) with
  | some hi, some lo => .ok { s with ir := wordOfBytes hi lo, irAddr := s.pc }
  | some _, none => .error (s.raise .fetchRange memSize)
  | none, _ => .error (s.raise .pcRange s.pc.toNat)

/-- The gap after a cycle: when the run goes on and no key wait is in progress, the host ticks or does not, as
TICK_SCHEDULE says, at most once (36_cycle_and_blocks R116, decision D20). -/
def State.gap (s : State) : State :=
  if s.status = .running ∧ s.wait = none then
    let t := s.ticks.head Config.gapTicks
    { s with
      ticks := s.ticks.advance
      dt := if t then tickTimer s.dt else s.dt
      st := if t then tickTimer s.st else s.st }
  else s

/-- The gap follows a cycle that ended in a next state. -/
def closeCycle : Outcome → Outcome
  | .next s => .next s.gap
  | .fault r => .fault r
  | .refused r => .refused r

/-- The cycle from its program-counter check on (36_cycle_and_blocks R106, steps 3 to 8). -/
def runFetched (s : State) : Outcome :=
  match s.fetch with
  | .ok s' => closeCycle (exec (decodeWord s'.ir) s')
  | .error s' => .next s'

/-- The first two steps of the cycle: K is cleared and the start-of-cycle poll is taken (36_cycle_and_blocks R106, R112,
decision D18). -/
def State.beginCycle (s : State) : State := (s.setK none).afterPoll

/-- One whole cycle: a quit at the start-of-cycle poll ends the run before anything is fetched, a key is latched
(36_cycle_and_blocks R106, R122; 60_exceptions R220). -/
def runCycle (s : State) : Outcome :=
  match s.nextPoll with
  | .quit => .next (s.beginCycle.setStatus .cancelled)
  | .nothing => runFetched s.beginCycle
  | .key k => runFetched (s.beginCycle.setK (some k))

/-- One transition of the core: a cycle, or one poll of the key wait in progress; none once the run has ended
(36_cycle_and_blocks R106, R114; 60_exceptions R222). -/
def advance (s : State) : Outcome :=
  match s.status with
  | .running =>
    match s.wait with
    | some x => closeCycle (exec (.getKey x) s)
    | none => runCycle s
  | ended => .fault (.runEnded ended)

/-- A word stored where the next cycle fetches, and a start-of-cycle poll that delivers nothing scheduled before the
others, since a quit there would end the run before the fetch (36_cycle_and_blocks R106; log entry 6). -/
def State.placeWord (s : State) (w : Word) : State :=
  { s with
    mem := s.mem.fill s.pc.toNat (bytesOfWord w)
    polls := ⟨[] :: s.polls.queue, s.polls.taken⟩ }

end Sys2Proof.Machine
end

