-- ==== Sys2Proof/Safety.lean ====
section
/-! DEFINITION. The terms the claims use: the invariants of spec/10_state.md R37 and of the fault latches, what a
fault-free state is, which registers an instruction may write (10_state R21, R22), and the state the execute step of a
cycle begins in. -/

namespace Sys2Proof.Machine

/-- SP never exceeds 12 (10_state R26, R37 a). -/
abbrev State.SpBounded (s : State) : Prop := s.sp.toNat ≤ stackDepth

/-- PC never exceeds 0x10FE (10_state R24, R37 b). -/
abbrev State.PcBounded (s : State) : Prop := s.pc.toNat ≤ 0x10FE

/-- Every live stack entry is the fetch address of a CALL, at most 4094 (10_state R37 c). -/
abbrev State.StackHoldsFetchAddresses (s : State) : Prop :=
  ∀ (k : Nat) (h : k < stackDepth), k < s.sp.toNat → s.stack[k].toNat ≤ 4094

/-- While a key wait is in progress the run goes on, PC is still at the GET_KEY, which was fetched from there, and IR holds
its word (45_keyboard_timers R202). -/
abbrev State.WaitAtGetKey (s : State) : Prop :=
  ∀ x, s.wait = some x →
    s.status = .running ∧ s.pc.toNat ≤ 4094 ∧ s.irAddr = s.pc ∧ decodeWord s.ir = .getKey x

/-- The invariant of the core (10_state R37). -/
structure State.CoreInv (s : State) : Prop where
  sp : s.SpBounded
  pc : s.PcBounded
  stack : s.StackHoldsFetchAddresses
  wait : s.WaitAtGetKey

/-- STATUS, FAULT_CAUSE and FAULT_ADDR agree as 60_exceptions R214 and R215 say: a cause other than none stands exactly in a
faulted state, and the address is the one its row gives. -/
def State.LatchesAgree (s : State) : Prop :=
  match s.faultCause with
  | .none => s.status ≠ .faulted ∧ s.faultAddr = 0
  | .pcRange => s.status = .faulted ∧ memSize ≤ s.pc.toNat ∧ s.faultAddr = s.pc.toNat
  | .fetchRange => s.status = .faulted ∧ s.pc.toNat = 4095 ∧ s.faultAddr = memSize
  | .dataRead | .dataWrite => s.status = .faulted ∧ s.faultAddr = max s.i.toNat memSize
  | .stackOverflow => s.status = .faulted ∧ s.sp.toNat = stackDepth ∧ s.faultAddr = 0
  | .stackUnderflow => s.status = .faulted ∧ s.sp.toNat = 0 ∧ s.faultAddr = 0

/-- A safe state: no fault of the spec has been taken (60_exceptions R210). -/
abbrev State.Faultless (s : State) : Prop := s.status ≠ .faulted

/-- The registers an instruction may write under a setting of the parameters: its named destination, and VF where the spec
lets it write VF as a side effect (10_state R21, R22). -/
def mayWrite (p : Params) : Instr → Reg → Prop
  | .setConst x _, r | .addConst x _, r | .setReg x _, r | .orReg x _, r | .andReg x _, r | .xorReg x _, r
  | .rand x _, r | .getKey x, r | .getDelay x, r => r = x
  | .addReg x _, r | .subReg x _, r | .subtract x _, r => r = x ∨ (r = flagReg ∧ p.arithVf ≠ .unchanged)
  | .bshiftRght x _, r | .bshiftLeft x _, r => r = x ∨ r = flagReg
  | .draw _ _ _, r => r = flagReg
  | .load x, r => r.val < if p.dumpLoadInclusive then x.val + 1 else x.val
  | .halt, _ | .clear, _ | .ret, _ | .routine _, _ | .goto _, _ | .call _, _ | .eqConst _ _, _ | .neqConst _ _, _
  | .eqReg _ _, _ | .neqReg _ _, _ | .seti _, _ | .jump _, _ | .keyP _, _ | .keyNp _, _ | .setDelay _, _
  | .setSound _, _ | .addi _, _ | .spri _, _ | .bcp _, _ | .dump _, _ | .noneInstr, _ => False

/-- What ADD_REG, SUB_REG and SUBTRACT leave, given their result and their flag of the policy carry_borrow (42_alu R173): the result,
then the flag write of ARITH_VF_POLICY last, and nothing else but PC and, under the policy any, the byte drawn. -/
def arithResult (s t : State) (x : Reg) (result : Nat) (flag : Bool) : Prop :=
  (x ≠ flagReg ∨ s.params.arithVf = .unchanged → (t.reg x).toNat = result) ∧
  (s.params.arithVf = .unchanged → x ≠ flagReg → t.reg flagReg = s.reg flagReg) ∧
  (s.params.arithVf = .carryBorrow → t.reg flagReg = if flag then 1 else 0) ∧
  (s.params.arithVf = .any → t.reg flagReg = s.drawnByte) ∧
  (∀ z, z ≠ x → z ≠ flagReg → t.reg z = s.reg z) ∧
  t = { s with v := t.v, pc := s.pc + 2, draws := if s.params.arithVf = .any then s.draws.advance else s.draws }

/-- The word at PC (20_memory R52). -/
def State.wordAtPc (s : State) : Word := wordOfBytes (s.mem.byteAt s.pc.toNat) (s.mem.byteAt (s.pc.toNat + 1))

/-- The key the start-of-cycle poll latches (36_cycle_and_blocks R112). -/
def latchOf : Poll → Option Key
  | .key k => some k
  | .nothing | .quit => none

/-- The state the execute step of a cycle begins in: K holds what the start-of-cycle poll delivered, IR and IR_ADDR the
instruction word and its address, and nothing else has changed (36_cycle_and_blocks R106, R107). -/
def State.fetched (s : State) : State :=
  { s with
    k := latchOf s.nextPoll
    polls := s.polls.advance
    ir := s.wordAtPc
    irAddr := s.pc }

/-- A cycle of `s` reaches its execute step: Running, no key wait, no quit at the start-of-cycle poll, and PC at most 4094
(36_cycle_and_blocks R106, R107). -/
structure State.CanFetch (s : State) : Prop where
  running : s.status = .running
  noWait : s.wait = none
  noQuit : s.nextPoll ≠ .quit
  inRange : s.pc.toNat ≤ 4094

end Sys2Proof.Machine
end

