-- ==== Sys2Proof/Certificates/Slice0/Obligations.lean ====
section
/-! DEFINITION. The statements for the provers, from the numbered rules of spec/. Where a clause rests on one of the spec's
own decisions (92_eei_decisions) or on a choice of this model (notes/assumptions), its docstring says so. -/

open Sys2Proof Sys2Proof.Machine

/-! ## Encoding -/

/-- 30_encoding sections 1 to 3: decoding the word of a well-formed instruction gives it back, with every operand at every
value. NONE stands for many words; the encoder's word for it is the model's choice (log entry 8). -/
def Obligations.DecodeOfEncodeIsIdentity : Prop :=
  ∀ i : Instr, i.WellFormed → decodeWord (encode i) = i

/-- 30_encoding R84, R87 and R90: every word decodes to a well-formed instruction, and every word outside the NONE space is the word the
encoder writes for it, so no bit of a word is dropped. -/
def Obligations.EncodeOfDecodeIsIdentity : Prop :=
  ∀ w : Word, (decodeWord w).WellFormed ∧ (decodeWord w ≠ .noneInstr → encode (decodeWord w) = w)

/-- 30_encoding R84: the decode procedure selects exactly the first row of the table whose masked bits match, and its
operands are the word's fields. -/
def Obligations.DecodeSelectsTheTableRow : Prop :=
  ∀ w : Word, selectedRow w = some (rowOf (decodeWord w)) ∧ (decodeWord w).operandsFrom w

/-- 30_encoding R86 and R87: the words that decode to NONE are exactly the five sets (a) to (e), the words that decode to ROUTINE exactly
those with first nibble 0 other than the three fixed words, and the all-zero word is HALT. -/
def Obligations.NoneAndRoutineWordsAreTheirSets : Prop :=
  (∀ w : Word, decodeWord w = .noneInstr ↔
    (opOf w = 0x5 ∧ (nOf w).val ≠ 0) ∨
    (opOf w = 0x8 ∧ (nOf w).val ∈ [0x8, 0x9, 0xA, 0xB, 0xC, 0xD, 0xF]) ∨
    (opOf w = 0x9 ∧ (nOf w).val ≠ 0) ∨
    (opOf w = 0xE ∧ (nnOf w).toNat ∉ [0x9E, 0xA1]) ∨
    (opOf w = 0xF ∧ (nnOf w).toNat ∉ [0x07, 0x0A, 0x15, 0x18, 0x1E, 0x29, 0x33, 0x55, 0x65])) ∧
  (∀ (w : Word) (nnn : Addr12), decodeWord w = .routine nnn ↔
    opOf w = 0 ∧ w ≠ 0x0000 ∧ w ≠ 0x00E0 ∧ w ≠ 0x00EE ∧ nnn = nnnOf w) ∧
  decodeWord 0x0000 = .halt

/-- The document's examples S2 to S6 and vectors V-D2 (95_test_vectors): a few words written out. -/
def Obligations.DecodesTheDocumentsWords : Prop :=
  decodeWord 0x00E0 = .clear ∧ decodeWord 0x00EE = .ret ∧ decodeWord 0x1234 = .goto 0x234 ∧
  decodeWord 0x6A12 = .setConst 10 0x12 ∧ decodeWord 0xD015 = .draw 0 1 5 ∧ decodeWord 0x00E1 = .routine 0x0E1 ∧
  decodeWord 0x8EF6 = .bshiftRght 14 15 ∧ decodeWord 0xF133 = .bcp 1 ∧ decodeWord 0x5AB1 = .noneInstr

/-- 20_memory R52: the instruction word is the byte at PC, high-order, then the byte at PC + 1; at PC = 4095 the second read
raises AddressFault with address 4096. Before it comes the check of 36_cycle_and_blocks R107 on PC itself. The sub-causes are those
of 60_exceptions R211 and their latches decision D16's (log entries 14 and 15). (That the fetch leaves PC where it is, decision
D1, is in StepRunsTheDecodedInstruction.) -/
def Obligations.FetchReadsTwoBytesHighOrderFirst : Prop :=
  ∀ s : State,
    (s.pc.toNat ≤ 4094 → ∃ t, s.fetch = .ok t ∧
      t.ir.toNat = (s.mem.byteAt s.pc.toNat).toNat * 256 + (s.mem.byteAt (s.pc.toNat + 1)).toNat) ∧
    (s.pc.toNat = 4095 → s.fetch = .error (s.raise .fetchRange 4096)) ∧
    (4096 ≤ s.pc.toNat → s.fetch = .error (s.raise .pcRange s.pc.toNat))

/-! ## The cycle -/

/-- 36_cycle_and_blocks R106, with decision D18 on the poll and D20 on the gap: when a cycle reaches its execute step and the two
bytes at PC decode to i, the step is exec of i in the fetched state (K latched, one poll taken, IR and IR_ADDR written),
followed by the gap. -/
def Obligations.StepRunsTheDecodedInstruction : Prop :=
  ∀ (s : State) (i : Instr) (rest : List Byte), s.CanFetch →
    decodeBytes [s.mem.byteAt s.pc.toNat, s.mem.byteAt (s.pc.toNat + 1)] = .ok (i, rest) →
    i.WellFormed ∧ step s = closeCycle (exec i s.fetched)

/-- 60_exceptions R211 and R217 with decisions D16 to D18: a PC that cannot be fetched from ends the run with PcRange or
FetchRange; nothing but K, the poll taken and the fault latches changes, so IR and IR_ADDR keep their values. -/
def Obligations.UnfetchablePcFaults : Prop :=
  ∀ s : State, s.status = .running → s.wait = none → s.nextPoll ≠ .quit →
    (4096 ≤ s.pc.toNat → step s =
      .next { s with k := latchOf s.nextPoll, polls := s.polls.advance, status := .faulted,
                     faultCause := .pcRange, faultAddr := s.pc.toNat }) ∧
    (s.pc.toNat = 4095 → step s =
      .next { s with k := latchOf s.nextPoll, polls := s.polls.advance, status := .faulted,
                     faultCause := .fetchRange, faultAddr := 4096 })

/-- 36_cycle_and_blocks R122: a quit at the start-of-cycle poll or inside a key wait sets STATUS to Cancelled; nothing is fetched, no
register is written and PC stays (the latch K has been cleared at the start of the cycle: decisions D18 and D32). -/
def Obligations.QuitCancelsTheRun : Prop :=
  ∀ s : State, s.status = .running → s.nextPoll = .quit →
    (s.wait = none → step s = .next { s with k := none, polls := s.polls.advance, status := .cancelled }) ∧
    (s.wait ≠ none → step s = .next { s with polls := s.polls.advance, status := .cancelled, wait := none })

/-- 60_exceptions R222, decision D29: once the run has ended no step exists until reset. The named fault is the model's form of
that stuck state. -/
def Obligations.NoStepAfterTheRunEnds : Prop :=
  ∀ s : State, s.status ≠ .running → step s = .fault (.runEnded s.status)

/-- 45_keyboard_timers R202 and 36_cycle_and_blocks R114, decision D19: each step of a key wait is one poll; nothing holds with no
change at all but the poll taken (so neither timer moves), a key ends the wait, stores its code and retires, and the gap
follows. The wait field is the model's (log entry 5). -/
def Obligations.KeyWaitStepsArePolls : Prop :=
  ∀ (s : State) (x : Reg), s.status = .running → s.wait = some x →
    (s.nextPoll = .nothing → step s = .next { s with polls := s.polls.advance }) ∧
    (∀ k : Key, s.nextPoll = .key k → ∃ t : State, step s = .next t.gap ∧
      t.reg x = byteOfKey k ∧ (∀ y, y ≠ x → t.reg y = s.reg y) ∧
      t = { s with v := t.v, pc := s.pc + 2, wait := none, polls := s.polls.advance })

/-- 36_cycle_and_blocks R116, decision D20: the gap after a cycle carries at most one tick of both timers together, none while a
key wait is in progress and none once the run has ended; it changes nothing else. Whether it ticks is a free value, and the
statement holds for both. -/
def Obligations.GapTicksAtMostOnce : Prop :=
  ∀ s : State,
    (s.status = .running → s.wait = none →
      s.gap = { s with
        ticks := s.ticks.advance
        dt := if s.ticks.head Config.gapTicks = true ∧ 0 < s.dt.toNat then s.dt - 1 else s.dt
        st := if s.ticks.head Config.gapTicks = true ∧ 0 < s.st.toNat then s.st - 1 else s.st }) ∧
    (s.status ≠ .running ∨ s.wait ≠ none → s.gap = s)

/-- 36_cycle_and_blocks R106 and R107: a word placed where the machine fetches is the instruction the very next step runs, from any
state in which a cycle can start. That the placed state's poll delivers nothing is the model's (log entry 6). -/
def Obligations.WithFetchWordRunsThatWord : Prop :=
  ∀ (s : State) (w : Nat), s.mem.wf → s.status = .running → s.wait = none → s.pc.toNat ≤ 4094 → w < 65536 →
    ∃ u : State, step (s.withFetchWord 16 w) = closeCycle (exec (decodeWord (BitVec.ofNat 16 w)) u) ∧
      u.ir = BitVec.ofNat 16 w ∧ u.mem.wf ∧
      (∀ a, a ≠ s.pc.toNat → a ≠ s.pc.toNat + 1 → u.mem.byteAt a = s.mem.byteAt a) ∧
      u = { s with k := none, ir := u.ir, irAddr := s.pc, mem := u.mem, polls := ⟨s.polls.queue, s.polls.taken + 1⟩ }

/-! ## Invariants -/

/-- 10_state R37 (a) to (c) and, for the clause on a key wait, 45_keyboard_timers R202 over the model's field of log entry 5 (whose
reset value none is the model's choice): the reset state meets the core's invariant, its fault latches agree and its memory is in
canonical form (SP and the latches by decisions D12 and D16). -/
def Obligations.ResetMeetsTheInvariants : Prop :=
  State.reset.CoreInv ∧ State.reset.LatchesAgree ∧ State.reset.mem.wf

/-- 10_state R37 (a) to (c), with decisions D2 to D4: every step keeps SP at most 12, PC at most 0x10FE and the live stack entries
at most 4094; and by 45_keyboard_timers R202 with decision D19, over the model's field of log entry 5, a key wait at its
GET_KEY. -/
def Obligations.StepKeepsTheCoreInvariant : Prop :=
  ∀ s t : State, s.CoreInv → step s = .next t → t.CoreInv

/-- Every step keeps memory in canonical form: strictly rising addresses below 4096, none listed with what it reads as unlisted. -/
def Obligations.StepKeepsMemoryCanonical : Prop :=
  ∀ s t : State, s.mem.wf → step s = .next t → t.mem.wf

/-- 60_exceptions R214, R215 and R223, decision D16: STATUS, FAULT_CAUSE and FAULT_ADDR always agree as the table of causes
says, whatever steps are taken. -/
def Obligations.StepKeepsLatchesInAgreement : Prop :=
  ∀ s t : State, s.LatchesAgree → step s = .next t → t.LatchesAgree

/-- 93_implementation_defined section 1 and 70_reset_and_hazards R255: from a running state that meets the stack invariant a step
always answers a next state: it neither stops nor refuses. -/
def Obligations.RunningCoreAlwaysSteps : Prop :=
  ∀ s : State, s.SpBounded → s.status = .running → ∃ t, step s = .next t

/-- Equal memories are equal data: two canonical memories that read the same at every address are the same list. -/
def Obligations.CanonicalMemoriesThatReadAlikeAreEqual : Prop :=
  ∀ m m' : Memory, m.wf → m'.wf → (∀ a, m.byteAt a = m'.byteAt a) → m = m'

/-! ## Whole-machine rules over every instruction -/

/-- 10_state R21 and R22: an instruction writes no general register but its destination and, where the spec lets it, VF (the
policies of decision D5; decision D30). The range LOAD writes is that of 43_index_memory R185 under either setting of
DUMP_LOAD_INCLUSIVE (decision D9, log entry 1); R21's row gives the default one. -/
def Obligations.RegistersWrittenAreTheTables : Prop :=
  ∀ (i : Instr) (s t : State) (y : Reg), exec i s = .next t → ¬ mayWrite s.params i y → t.reg y = s.reg y

/-- 10_state R26 and R27: no instruction other than CALL and RETURN reaches the call stack or its pointer. -/
def Obligations.OnlyCallAndReturnReachTheStack : Prop :=
  ∀ (i : Instr) (s t : State), exec i s = .next t → (∀ nnn, i ≠ .call nnn) →
    t.stack = s.stack ∧ (i ≠ .ret → t.sp = s.sp)

/-- 10_state R30, 20_memory R66 and R67: the framebuffer is written by CLEAR and DRAW only, memory by BCP and DUMP only. -/
def Obligations.FramebufferAndMemoryHaveTheirWriters : Prop :=
  ∀ (i : Instr) (s t : State), exec i s = .next t →
    (i ≠ .clear → (∀ x y n, i ≠ .draw x y n) → t.fb = s.fb) ∧
    ((∀ x, i ≠ .bcp x) → (∀ x, i ≠ .dump x) → t.mem = s.mem ∧ ∀ a, t.mem.byteAt a = s.mem.byteAt a)

/-- 70_reset_and_hazards R250: over a step DT never increases except by SET_DELAY, and decreases by at most 1. -/
def Obligations.DelayTimerOnlyCountsDown : Prop :=
  ∀ s t : State, step s = .next t → (∀ x, decodeWord s.wordAtPc ≠ .setDelay x) →
    t.dt = s.dt ∨ (0 < s.dt.toNat ∧ t.dt.toNat = s.dt.toNat - 1)

/-- 10_state R25, R28, R29, R31, R35 and R39 (decision D9 for I): within an instruction I is written by SETI, ADDI and SPRI only, DT by
SET_DELAY only, ST by SET_SOUND only, and K, IR, IR_ADDR, the parameters and the tick schedule by none. -/
def Obligations.SpecialRegistersAreWrittenByTheirInstructions : Prop :=
  ∀ (i : Instr) (s t : State), exec i s = .next t →
    ((∀ nnn, i ≠ .seti nnn) → (∀ x, i ≠ .addi x) → (∀ x, i ≠ .spri x) → t.i = s.i) ∧
    ((∀ x, i ≠ .setDelay x) → t.dt = s.dt) ∧ ((∀ x, i ≠ .setSound x) → t.st = s.st) ∧
    t.k = s.k ∧ t.ir = s.ir ∧ t.irAddr = s.irAddr ∧ t.params = s.params ∧ t.ticks = s.ticks

/-- 60_exceptions R216, decision D10: an instruction that faults changes nothing but STATUS, FAULT_CAUSE and FAULT_ADDR. -/
def Obligations.FaultsLeaveNoPartialEffect : Prop :=
  ∀ (i : Instr) (s t : State), exec i s = .next t → s.status ≠ .faulted → t.status = .faulted →
    t = { s with status := .faulted, faultCause := t.faultCause, faultAddr := t.faultAddr }

/-- 60_exceptions R214, R215 and R220, decisions D16 and D17: the one fault each instruction can take, with its address; no other
instruction takes any. -/
def Obligations.EachInstructionHasOneFault : Prop :=
  ∀ (i : Instr) (s t : State), exec i s = .next t → s.status ≠ .faulted → t.status = .faulted →
    match i with
    | .call _ => t.faultCause = .stackOverflow ∧ t.faultAddr = 0 ∧ s.sp = 12
    | .ret => t.faultCause = .stackUnderflow ∧ t.faultAddr = 0 ∧ s.sp = 0
    | .bcp _ | .dump _ => t.faultCause = .dataWrite ∧ t.faultAddr = max s.i.toNat 4096
    | .draw _ _ _ | .load _ => t.faultCause = .dataRead ∧ t.faultAddr = max s.i.toNat 4096
    | _ => False

/-- 10_state R24, with decisions D1, D2 and D15: where each instruction leaves PC when it neither faults nor ends the run by a
quit, from the address s.pc it was fetched from. -/
def Obligations.PcAfterEachInstruction : Prop :=
  ∀ (i : Instr) (s t : State), exec i s = .next t → s.status = .running → t.status ≠ .faulted → t.status ≠ .cancelled →
    match i with
    | .goto nnn | .call nnn => t.pc = nnn.setWidth 16
    | .jump nnn => t.pc.toNat = (s.reg 0).toNat + nnn.toNat
    | .ret => ∀ h : s.sp.toNat - 1 < stackDepth, t.pc = s.stack[s.sp.toNat - 1] + 2
    | .eqConst x nn => t.pc = if s.reg x = nn then s.pc + 4 else s.pc + 2
    | .neqConst x nn => t.pc = if s.reg x = nn then s.pc + 2 else s.pc + 4
    | .eqReg x y => t.pc = if s.reg x = s.reg y then s.pc + 4 else s.pc + 2
    | .neqReg x y => t.pc = if s.reg x = s.reg y then s.pc + 2 else s.pc + 4
    | .keyP x => t.pc = if s.isPressed (s.reg x) then s.pc + 4 else s.pc + 2
    | .keyNp x => t.pc = if s.isPressed (s.reg x) then s.pc + 2 else s.pc + 4
    | .getKey _ => t.pc = if s.nextPoll = .nothing then s.pc else s.pc + 2
    | _ => t.pc = s.pc + 2

/-! ## Control flow -/

/-- 40_control_flow R130, decision D15: HALT sets STATUS to Halted, retires, and changes nothing else. -/
def Obligations.HaltStopsTheRun : Prop :=
  ∀ s : State, exec .halt s = .next { s with status := .halted, pc := s.pc + 2 }

/-- 40_control_flow R131 and R132, decision D15: ROUTINE and NONE retire and change nothing else; the address of ROUTINE is ignored. -/
def Obligations.RoutineAndNoneOnlyRetire : Prop :=
  ∀ s : State, (∀ nnn, exec (.routine nnn) s = .next { s with pc := s.pc + 2 }) ∧
    exec .noneInstr s = .next { s with pc := s.pc + 2 }

/-- 40_control_flow R134 and R136: GOTO sets PC to its address, JUMP to V[0] plus its address, not reduced to 12 bits; neither
retires and neither changes anything else. -/
def Obligations.GotoAndJumpSetThePc : Prop :=
  ∀ (s : State) (nnn : Addr12),
    (∃ t, exec (.goto nnn) s = .next t ∧ t.pc.toNat = nnn.toNat ∧ t = { s with pc := t.pc }) ∧
    (∃ t, exec (.jump nnn) s = .next t ∧ t.pc.toNat = (s.reg 0).toNat + nnn.toNat ∧ t = { s with pc := t.pc })

/-- 40_control_flow R135, decision D2: CALL below the depth stores its own address at STACK[SP], increments SP and sets PC; every
other entry and all other state is unchanged. -/
def Obligations.CallPushesItsOwnAddress : Prop :=
  ∀ (s : State) (nnn : Addr12) (h : s.sp.toNat < stackDepth), ∃ t, exec (.call nnn) s = .next t ∧
    t.stack[s.sp.toNat] = s.pc ∧ t.sp.toNat = s.sp.toNat + 1 ∧ t.pc.toNat = nnn.toNat ∧
    (∀ (k : Nat) (hk : k < stackDepth), k ≠ s.sp.toNat → t.stack[k] = s.stack[k]) ∧
    t = { s with stack := t.stack, sp := t.sp, pc := t.pc }

/-- 40_control_flow R133, decisions D2 and D28: RETURN with entries on the stack decrements SP and lands past the CALL whose
address it pops; the stack's entries keep their values. -/
def Obligations.ReturnLandsPastTheCall : Prop :=
  ∀ (s : State) (_ : 0 < s.sp.toNat) (h2 : s.sp.toNat ≤ stackDepth), ∃ t, exec .ret s = .next t ∧
    t.sp.toNat = s.sp.toNat - 1 ∧
    t.pc = s.stack[s.sp.toNat - 1]'(by simp only [stackDepth] at *; omega) + 2 ∧
    t = { s with sp := t.sp, pc := t.pc }

/-- 60_exceptions R212 and R213, decisions D3 and D4: CALL at SP = 12 and RETURN at SP = 0 fault and change nothing but the fault
latches; above SP = 12, where the spec gives no behaviour (93 section 1), both are refused by name (the model's form). -/
def Obligations.StackLimitsFault : Prop :=
  ∀ (s : State) (nnn : Addr12),
    (s.sp.toNat = 12 → exec (.call nnn) s =
      .next { s with status := .faulted, faultCause := .stackOverflow, faultAddr := 0 }) ∧
    (s.sp.toNat = 0 → exec .ret s =
      .next { s with status := .faulted, faultCause := .stackUnderflow, faultAddr := 0 }) ∧
    (12 < s.sp.toNat → exec (.call nnn) s = .refused (.stackPointerBeyondDepth s.sp) ∧
      exec .ret s = .refused (.stackPointerBeyondDepth s.sp))

/-- 40_control_flow R133 and R135, decision D2: a RETURN right after a CALL comes back to the instruction after the CALL, with
SP, every live stack entry and all other state as before the CALL. -/
def Obligations.ReturnUndoesCall : Prop :=
  ∀ (s : State) (nnn : Addr12), s.sp.toNat < stackDepth →
    ∃ t u, exec (.call nnn) s = .next t ∧ exec .ret t = .next u ∧
      u = { s with stack := u.stack, pc := s.pc + 2 } ∧
      ∀ (k : Nat) (hk : k < stackDepth), k < s.sp.toNat → u.stack[k] = s.stack[k]

/-! ## Skips -/

/-- 41_skips R150 to R153: a comparison that holds skips the next instruction, one that does not only retires; no register or
flag is written. -/
def Obligations.SkipsFollowTheirComparison : Prop :=
  ∀ (s : State) (x y : Reg) (nn : Byte),
    exec (.eqConst x nn) s = .next { s with pc := if s.reg x = nn then s.pc + 4 else s.pc + 2 } ∧
    exec (.neqConst x nn) s = .next { s with pc := if s.reg x ≠ nn then s.pc + 4 else s.pc + 2 } ∧
    exec (.eqReg x y) s = .next { s with pc := if s.reg x = s.reg y then s.pc + 4 else s.pc + 2 } ∧
    exec (.neqReg x y) s = .next { s with pc := if s.reg x ≠ s.reg y then s.pc + 4 else s.pc + 2 }

/-! ## Arithmetic, logic, shifts, RAND -/

/-- 42_alu R160 and R161, decision D30 on VF: SET_CONST assigns the immediate and ADD_CONST adds it modulo 256; no other register (VF included, unless
it is the destination) and nothing but PC changes. -/
def Obligations.ImmediateFormsWriteTheirRegister : Prop :=
  ∀ (s : State) (x : Reg) (nn : Byte),
    (∃ t, exec (.setConst x nn) s = .next t ∧ t.reg x = nn ∧ (∀ y, y ≠ x → t.reg y = s.reg y) ∧
      t = { s with v := t.v, pc := s.pc + 2 }) ∧
    (∃ t, exec (.addConst x nn) s = .next t ∧ (t.reg x).toNat = ((s.reg x).toNat + nn.toNat) % 256 ∧
      (∀ y, y ≠ x → t.reg y = s.reg y) ∧ t = { s with v := t.v, pc := s.pc + 2 })

/-- 42_alu R162 to R165, decision D30 on VF: SET_REG, OR, AND and XOR write V[x] bit by bit from the registers before the instruction, x = y
included; VF is not cleared and nothing else but PC changes. -/
def Obligations.LogicFormsWriteTheirRegister : Prop :=
  ∀ (s : State) (x y : Reg),
    (∃ t, exec (.setReg x y) s = .next t ∧ t.reg x = s.reg y ∧ (∀ z, z ≠ x → t.reg z = s.reg z) ∧
      t = { s with v := t.v, pc := s.pc + 2 }) ∧
    (∃ t, exec (.orReg x y) s = .next t ∧
      (∀ b, (t.reg x).getLsbD b = ((s.reg x).getLsbD b || (s.reg y).getLsbD b)) ∧
      (∀ z, z ≠ x → t.reg z = s.reg z) ∧ t = { s with v := t.v, pc := s.pc + 2 }) ∧
    (∃ t, exec (.andReg x y) s = .next t ∧
      (∀ b, (t.reg x).getLsbD b = ((s.reg x).getLsbD b && (s.reg y).getLsbD b)) ∧
      (∀ z, z ≠ x → t.reg z = s.reg z) ∧ t = { s with v := t.v, pc := s.pc + 2 }) ∧
    (∃ t, exec (.xorReg x y) s = .next t ∧
      (∀ b, (t.reg x).getLsbD b = ((s.reg x).getLsbD b ^^ (s.reg y).getLsbD b)) ∧
      (∀ z, z ≠ x → t.reg z = s.reg z) ∧ t = { s with v := t.v, pc := s.pc + 2 })

/-- 42_alu R166, R167 and R169 with R173 (decision D5), under every setting of ARITH_VF_POLICY: the results modulo 256 (SUBTRACT
reverses the operands of SUB_REG), and VF unchanged, the carry or absence of a borrow written last, or a free byte. -/
def Obligations.ArithmeticFormsFollowTheFlagPolicy : Prop :=
  ∀ (s : State) (x y : Reg),
    (∃ t, exec (.addReg x y) s = .next t ∧
      arithResult s t x (((s.reg x).toNat + (s.reg y).toNat) % 256)
        (255 < (s.reg x).toNat + (s.reg y).toNat)) ∧
    (∃ t, exec (.subReg x y) s = .next t ∧
      arithResult s t x (((s.reg x).toNat + 256 - (s.reg y).toNat) % 256)
        ((s.reg y).toNat ≤ (s.reg x).toNat)) ∧
    (∃ t, exec (.subtract x y) s = .next t ∧
      arithResult s t x (((s.reg y).toNat + 256 - (s.reg x).toNat) % 256)
        ((s.reg x).toNat ≤ (s.reg y).toNat))

/-- 42_alu R168, R170 and R176, decision D6: BSHIFT_RGHT writes bit 7 of V[x] to VF as 0 or 1 and halves V[x], BSHIFT_LEFT writes bit 0
and doubles V[x] modulo 256; with x = 15 the freshly written flag is shifted, so VF ends as 0, or as twice its old bit 0; y plays
no part (R88). -/
def Obligations.ShiftsFlagThenShiftTheirRegister : Prop :=
  ∀ (s : State) (x y : Reg),
    (∃ t, exec (.bshiftRght x y) s = .next t ∧ (∀ y', exec (.bshiftRght x y') s = .next t) ∧
      (x ≠ flagReg → (t.reg flagReg).toNat = (s.reg x).toNat / 128 ∧ (t.reg x).toNat = (s.reg x).toNat / 2) ∧
      (x = flagReg → t.reg flagReg = 0) ∧
      (∀ z, z ≠ x → z ≠ flagReg → t.reg z = s.reg z) ∧
      t = { s with v := t.v, pc := s.pc + 2 }) ∧
    (∃ t, exec (.bshiftLeft x y) s = .next t ∧ (∀ y', exec (.bshiftLeft x y') s = .next t) ∧
      (x ≠ flagReg → (t.reg flagReg).toNat = (s.reg x).toNat % 2 ∧ (t.reg x).toNat = (s.reg x).toNat * 2 % 256) ∧
      (x = flagReg → (t.reg flagReg).toNat = (s.reg x).toNat % 2 * 2) ∧
      (∀ z, z ≠ x → z ≠ flagReg → t.reg z = s.reg z) ∧
      t = { s with v := t.v, pc := s.pc + 2 })

/-- 42_alu R171, decisions D21 and D30: RAND writes the drawn byte masked by nn, so that no bit is set that nn has clear; nn = 0 gives 0 and nn = 0xFF
the byte itself. The byte is a free value, and the statement holds for every one. -/
def Obligations.RandMasksTheDrawnByte : Prop :=
  ∀ (s : State) (x : Reg) (nn : Byte), ∃ t, exec (.rand x nn) s = .next t ∧
    t.reg x = s.drawnByte &&& nn ∧ (∀ b, (t.reg x).getLsbD b = true → nn.getLsbD b = true) ∧
    (nn = 0 → t.reg x = 0) ∧ (nn = 0xFF → t.reg x = s.drawnByte) ∧
    (∀ y, y ≠ x → t.reg y = s.reg y) ∧
    t = { s with v := t.v, pc := s.pc + 2, draws := s.draws.advance }

/-! ## Index register and memory transfers -/

/-- 43_index_memory R180 and R181, decision D30 on VF: SETI assigns I, ADDI adds V[x] modulo 65536; no flag, no fault, nothing else but PC. -/
def Obligations.SetiAndAddiWriteTheIndex : Prop :=
  ∀ (s : State) (nnn : Addr12) (x : Reg),
    (∃ t, exec (.seti nnn) s = .next t ∧ t.i.toNat = nnn.toNat ∧ t = { s with i := t.i, pc := s.pc + 2 }) ∧
    (∃ t, exec (.addi x) s = .next t ∧ t.i.toNat = (s.i.toNat + (s.reg x).toNat) % 65536 ∧
      t = { s with i := t.i, pc := s.pc + 2 })

/-- 43_index_memory R182, decision D11: SPRI sets I to V[x] times 5, exact and not masked. -/
def Obligations.SpriPointsAtTheGlyph : Prop :=
  ∀ (s : State) (x : Reg), ∃ t, exec (.spri x) s = .next t ∧ t.i.toNat = (s.reg x).toNat * 5 ∧
    t = { s with i := t.i, pc := s.pc + 2 }

/-- 43_index_memory R183, decisions D9 on I and D10 on the fault: BCP writes the hundreds, tens and ones of V[x] at I, I + 1 and I + 2 and no other byte; when one of the
three addresses is 4096 or more it faults and writes nothing. -/
def Obligations.BcpStoresDecimalDigits : Prop :=
  ∀ (s : State) (x : Reg),
    (s.mem.wf → s.i.toNat + 2 < 4096 → ∃ t, exec (.bcp x) s = .next t ∧
      (t.mem.byteAt s.i.toNat).toNat = (s.reg x).toNat / 100 ∧
      (t.mem.byteAt (s.i.toNat + 1)).toNat = (s.reg x).toNat / 10 % 10 ∧
      (t.mem.byteAt (s.i.toNat + 2)).toNat = (s.reg x).toNat % 10 ∧
      (∀ a, (∀ k < 3, a ≠ s.i.toNat + k) → t.mem.byteAt a = s.mem.byteAt a) ∧
      t = { s with mem := t.mem, pc := s.pc + 2 }) ∧
    (4096 ≤ s.i.toNat + 2 → exec (.bcp x) s =
      .next { s with status := .faulted, faultCause := .dataWrite, faultAddr := max s.i.toNat 4096 })

/-- 43_index_memory R184, decisions D9 and D10, under both settings of DUMP_LOAD_INCLUSIVE: DUMP writes V[0], V[1], ... upwards from I and no
other byte; when its highest address is 4096 or more it faults and writes nothing. -/
def Obligations.DumpStoresTheFirstRegisters : Prop :=
  ∀ (s : State) (x : Count) (len : Nat), len = (if s.params.dumpLoadInclusive then x.val + 1 else x.val) →
    (s.mem.wf → len = 0 ∨ s.i.toNat + len ≤ 4096 → ∃ t, exec (.dump x) s = .next t ∧
      (∀ r : Reg, r.val < len → t.mem.byteAt (s.i.toNat + r.val) = s.reg r) ∧
      (∀ a, (∀ k < len, a ≠ s.i.toNat + k) → t.mem.byteAt a = s.mem.byteAt a) ∧
      t = { s with mem := t.mem, pc := s.pc + 2 }) ∧
    (0 < len → 4096 < s.i.toNat + len → exec (.dump x) s =
      .next { s with status := .faulted, faultCause := .dataWrite, faultAddr := max s.i.toNat 4096 })

/-- 43_index_memory R185, decisions D9 and D10, under both settings of DUMP_LOAD_INCLUSIVE: LOAD reads V[0], V[1], ... upwards from I and changes no other
register and no memory; when its highest address is 4096 or more it faults and writes nothing. -/
def Obligations.LoadReadsTheFirstRegisters : Prop :=
  ∀ (s : State) (x : Count) (len : Nat), len = (if s.params.dumpLoadInclusive then x.val + 1 else x.val) →
    (len = 0 ∨ s.i.toNat + len ≤ 4096 → ∃ t, exec (.load x) s = .next t ∧
      (∀ r : Reg, r.val < len → t.reg r = s.mem.byteAt (s.i.toNat + r.val)) ∧
      (∀ r : Reg, len ≤ r.val → t.reg r = s.reg r) ∧
      t = { s with v := t.v, pc := s.pc + 2 }) ∧
    (0 < len → 4096 < s.i.toNat + len → exec (.load x) s =
      .next { s with status := .faulted, faultCause := .dataRead, faultAddr := max s.i.toNat 4096 })

/-- 43_index_memory R184 and R185, decision D9: LOAD is the inverse of DUMP: registers dumped and later loaded from the same memory, I and
parameters come back. -/
def Obligations.LoadRestoresWhatDumpStored : Prop :=
  ∀ (s t u : State) (x : Count), s.mem.wf → s.status = .running →
    exec (.dump x) s = .next t → t.status = .running → u.mem = t.mem → u.i = s.i → u.params = s.params →
    ∃ w, exec (.load x) u = .next w ∧
      ∀ r : Reg, r.val < (if s.params.dumpLoadInclusive then x.val + 1 else x.val) → w.reg r = s.reg r

/-- 20_memory R64: a store is seen by the next instruction fetch: after a DUMP, a fetch inside the stored span reads the dumped
registers as its word. -/
def Obligations.StoresAreSeenByTheNextFetch : Prop :=
  ∀ (s t u : State) (x : Count) (r : Reg) (h : r.val + 1 < 16), s.mem.wf → s.status = .running →
    exec (.dump x) s = .next t → t.status = .running →
    r.val + 1 < (if s.params.dumpLoadInclusive then x.val + 1 else x.val) →
    u.mem = t.mem → u.pc.toNat = s.i.toNat + r.val →
    u.fetch = .ok { u with ir := wordOfBytes (s.reg r) (s.reg ⟨r.val + 1, h⟩), irAddr := u.pc }

/-! ## Memory operations -/

/-- 20_memory R51 and 36_cycle_and_blocks R101: read and write fail exactly from 4096 on; otherwise a write replaces the one byte and
nothing else, and keeps the canonical form. -/
def Obligations.MemoryReadsBackWhatWasWritten : Prop :=
  ∀ (m : Memory) (a : Nat) (x : Byte), m.wf →
    (4096 ≤ a → m.read a = none ∧ m.write a x = none) ∧
    (a < 4096 → m.read a = some (m.byteAt a) ∧
      ∃ m', m.write a x = some m' ∧ m'.wf ∧ m'.read a = some x ∧ ∀ b, b ≠ a → m'.read b = m.read b)

/-- 20_memory R60: load_program copies the image from 512 on, truncated silently to 3584 bytes, and changes no other location. -/
def Obligations.LoadProgramTruncatesTheImage : Prop :=
  ∀ (s : State) (image : List Byte), s.mem.wf →
    (∀ k, k < min image.length 3584 → (s.loadProgram image).mem.byteAt (512 + k) = image.getD k 0) ∧
    (∀ a, (∀ k < min image.length 3584, a ≠ 512 + k) → (s.loadProgram image).mem.byteAt a = s.mem.byteAt a) ∧
    s.loadProgram image = { s with mem := (s.loadProgram image).mem }

/-- 10_state R40 and 70_reset_and_hazards R242, decisions D12 to D14: the state after boot for any FONT and any image: the font at 0 to 79,
zeros up to 511, the image from 512, zeros after it, and every register at its reset value. -/
def Obligations.BootLaysOutMemory : Prop :=
  ∀ (font : Vector Byte 80) (image : List Byte),
    (∀ (a : Nat) (h : a < 80), (State.boot font image).mem.byteAt a = font[a]) ∧
    (∀ a, 80 ≤ a → a < 512 → (State.boot font image).mem.byteAt a = 0) ∧
    (∀ k, k < min image.length 3584 → (State.boot font image).mem.byteAt (512 + k) = image.getD k 0) ∧
    (∀ a, 512 + min image.length 3584 ≤ a → (State.boot font image).mem.byteAt a = 0) ∧
    (State.boot font image).mem.wf ∧
    State.boot font image = { State.reset with mem := (State.boot font image).mem }

/-- 70_reset_and_hazards R240: what reset leaves: PC at 512 (the document's), and by the spec's decisions D12, D13, D16 and D24 every
register, timer, stack entry, cell, latch and byte of memory at zero, off or none, the run not ended (log entry 3); the key wait
field, none, is the model's (log entry 5). -/
def Obligations.ResetValues : Prop :=
  State.reset.pc = 512 ∧ (∀ x, State.reset.reg x = 0) ∧ State.reset.i = 0 ∧ State.reset.sp = 0 ∧
  (∀ (k : Nat) (h : k < stackDepth), State.reset.stack[k] = 0) ∧ State.reset.dt = 0 ∧ State.reset.st = 0 ∧
  (∀ x y, State.reset.fb.cell x y = false) ∧ State.reset.k = none ∧ State.reset.status = .running ∧
  State.reset.faultCause = .none ∧ State.reset.faultAddr = 0 ∧ State.reset.ir = 0 ∧ State.reset.irAddr = 0 ∧
  State.reset.wait = none ∧ ∀ a, State.reset.mem.byteAt a = 0

/-! ## Display -/

/-- 44_display R190: CLEAR turns every cell off, writes no flag and changes nothing else but PC. -/
def Obligations.ClearTurnsEveryCellOff : Prop :=
  ∀ s : State, ∃ t, exec .clear s = .next t ∧ (∀ x y, t.fb.cell x y = false) ∧
    t = { s with fb := t.fb, pc := s.pc + 2 }

/-- 44_display R191 and R192, decisions D7, D8 and D10: DRAW combines each covered cell, coordinates wrapping on both axes, with its sprite bit by exclusive or and
leaves every other cell; V[15] becomes 1 exactly when a covered cell was lit under a sprite bit of 1 (or of 0, if
DRAW_COLLIDE_ZERO_BITS) and is otherwise not written; a row at 4096 or above faults with nothing drawn. -/
def Obligations.DrawCombinesByExclusiveOr : Prop :=
  ∀ (s : State) (x y : Reg) (n : Count) (x0 y0 : Nat) (bit : Nat → Nat → Bool) (hit : Prop),
    x0 = (s.reg x).toNat → y0 = (s.reg y).toNat →
    (∀ r c, bit r c = (s.mem.byteAt (s.i.toNat + r)).getLsbD (7 - c)) →
    (hit ↔ ∃ r c, r < n.val ∧ c < 8 ∧ s.fb.cell (x0 + c) (y0 + r) = true ∧
      (bit r c = true ∨ s.params.collideZeroBits = true)) →
    (n.val = 0 ∨ s.i.toNat + n.val ≤ 4096 → ∃ t, exec (.draw x y n) s = .next t ∧
      (∀ r c, r < n.val → c < 8 →
        t.fb.cell ((x0 + c) % 64) ((y0 + r) % 32) = (s.fb.cell ((x0 + c) % 64) ((y0 + r) % 32) ^^ bit r c)) ∧
      (∀ cx cy, cx < 64 → cy < 32 → (∀ r c, r < n.val → c < 8 → ¬ (cx = (x0 + c) % 64 ∧ cy = (y0 + r) % 32)) →
        t.fb.cell cx cy = s.fb.cell cx cy) ∧
      (hit → t.reg flagReg = 1) ∧ (¬ hit → t.reg flagReg = s.reg flagReg) ∧
      (∀ z, z ≠ flagReg → t.reg z = s.reg z) ∧
      t = { s with fb := t.fb, v := t.v, pc := s.pc + 2 }) ∧
    (0 < n.val → 4096 < s.i.toNat + n.val → exec (.draw x y n) s =
      .next { s with status := .faulted, faultCause := .dataRead, faultAddr := max s.i.toNat 4096 })

/-- 44_display R194 (a): drawing the same sprite twice at the same location restores the framebuffer, and if the first draw lit a
cell the second sets V[15] to 1. (A first draw that wrote V[15] while x or y is 15 has moved the location: hence the two
premises on the registers.) -/
def Obligations.DrawingTwiceRestoresTheFramebuffer : Prop :=
  ∀ (s t u : State) (x y : Reg) (n : Count), s.status = .running →
    exec (.draw x y n) s = .next t → t.status = .running → t.reg x = s.reg x → t.reg y = s.reg y →
    exec (.draw x y n) t = .next u →
    u.fb = s.fb ∧
    ((∃ cx cy, s.fb.cell cx cy = false ∧ t.fb.cell cx cy = true) → u.reg flagReg = 1)

/-- 44_display R194 (b) and (c): a DRAW on a clear framebuffer never writes V[15], and a DRAW whose sprite bytes are all zero changes
no cell. -/
def Obligations.DrawOnClearScreenOrOfZerosIsHarmless : Prop :=
  ∀ (s t : State) (x y : Reg) (n : Count), exec (.draw x y n) s = .next t →
    ((∀ cx cy, s.fb.cell cx cy = false) → ∀ z, t.reg z = s.reg z) ∧
    ((∀ r, r < n.val → s.mem.byteAt (s.i.toNat + r) = 0) → t.fb = s.fb)

/-! ## Keyboard and timers -/

/-- 45_keyboard_timers R200 and R201, decision D25: KEY_P skips when a key is latched and its code is the full value of V[x], KEY_NP when
not; nothing else changes. -/
def Obligations.KeySkipsTestTheLatch : Prop :=
  ∀ (s : State) (x : Reg) (pressed : Prop), (pressed ↔ ∃ k, s.k = some k ∧ k.val = (s.reg x).toNat) →
    (pressed → exec (.keyP x) s = .next { s with pc := s.pc + 4 } ∧
      exec (.keyNp x) s = .next { s with pc := s.pc + 2 }) ∧
    (¬ pressed → exec (.keyP x) s = .next { s with pc := s.pc + 2 } ∧
      exec (.keyNp x) s = .next { s with pc := s.pc + 4 })

/-- 45_keyboard_timers R202, decision D19: GET_KEY takes one poll, whatever K holds: a key is stored, zero-extended, and the instruction
retires; nothing begins the wait and changes no other state; a quit ends the run with V[x] and PC unchanged. -/
def Obligations.GetKeyTakesOnePoll : Prop :=
  ∀ (s : State) (x : Reg),
    (∀ k, s.nextPoll = .key k → ∃ t, exec (.getKey x) s = .next t ∧ (t.reg x).toNat = k.val ∧
      (∀ y, y ≠ x → t.reg y = s.reg y) ∧
      t = { s with v := t.v, pc := s.pc + 2, wait := none, polls := s.polls.advance }) ∧
    (s.nextPoll = .nothing → exec (.getKey x) s = .next { s with wait := some x, polls := s.polls.advance }) ∧
    (s.nextPoll = .quit → exec (.getKey x) s =
      .next { s with status := .cancelled, wait := none, polls := s.polls.advance })

/-- 45_keyboard_timers R203 to R205: GET_DELAY reads DT into V[x], SET_DELAY and SET_SOUND write DT and ST from V[x]; nothing else but PC. -/
def Obligations.TimerInstructionsMoveTheirTimer : Prop :=
  ∀ (s : State) (x : Reg),
    (∃ t, exec (.getDelay x) s = .next t ∧ t.reg x = s.dt ∧ (∀ y, y ≠ x → t.reg y = s.reg y) ∧
      t = { s with v := t.v, pc := s.pc + 2 }) ∧
    exec (.setDelay x) s = .next { s with dt := s.reg x, pc := s.pc + 2 } ∧
    exec (.setSound x) s = .next { s with st := s.reg x, pc := s.pc + 2 }

/-- 36_cycle_and_blocks R104: a tick decrements each timer by 1 if it is greater than 0 and leaves it at 0 otherwise, and changes nothing
else; loading and reading a timer give the byte. -/
def Obligations.TickDecrementsWithAFloorOfZero : Prop :=
  ∀ s : State, s.tick.dt.toNat = s.dt.toNat - 1 ∧ s.tick.st.toNat = s.st.toNat - 1 ∧
    s.tick = { s with dt := s.tick.dt, st := s.tick.st } ∧
    ∀ b, s.setDt b = { s with dt := b } ∧ s.setSt b = { s with st := b }

/-- 36_cycle_and_blocks R112, R121 and R123 with decisions D17 and D18: at one poll point a quit wins over every key, otherwise the last recognised
key-down counts, and key-ups, unrecognised keys and step signals change nothing. -/
def Obligations.PollTakesQuitThenTheLastKey : Prop :=
  ∀ es : List HostEvent,
    (HostEvent.quit ∈ es → pollOf es = .quit) ∧
    (∀ (k : HostKey) (c : Key), HostEvent.quit ∉ es → keyCode k = some c → pollOf (es ++ [.keyDown k]) = .key c) ∧
    (∀ k, pollOf (es ++ [.keyUp k]) = pollOf es) ∧ pollOf (es ++ [.stepSignal]) = pollOf es ∧
    pollOf (es ++ [.keyDown .other]) = pollOf es ∧
    (pollOf es = .nothing ↔ HostEvent.quit ∉ es ∧ ∀ k, HostEvent.keyDown k ∈ es → keyCode k = none)
end

