-- ==== Sys2Proof/Laws/Memory.lean ====
section
/-! SUPPORT. The memory block: what a byte reads as after a write, that every operation keeps the canonical form, and
when a span of accesses succeeds (spec/20_memory.md R51, R53, R68). -/

namespace Sys2Proof.Machine

/-! ## One byte -/

/-- An address below every listed one reads as unlisted. -/
theorem Memory.byteAt_below (m : Memory) (a : Nat) (h : ∀ c ∈ m, a < c.1) : m.byteAt a = Memory.unlisted a := by
  induction m with
  | nil => rfl
  | cons c m ih =>
    have hc : a < c.1 := h c (by simp)
    have hm : Memory.byteAt m a = Memory.unlisted a := ih fun d hd => h d (by simp [hd])
    simp [Memory.byteAt, Nat.ne_of_lt hc, hm]

/-- What each address reads as after one byte has been replaced. -/
theorem Memory.byteAt_put (m : Memory) (a : Nat) (x : Byte) (b : Nat) (h : m.wf) :
    (m.put a x).byteAt b = if b = a then x else m.byteAt b := by
  induction m with
  | nil =>
    by_cases hx : x = Memory.unlisted a <;> by_cases hb : b = a <;> simp_all [Memory.put, Memory.byteAt]
  | cons c m ih =>
    obtain ⟨c, w⟩ := c
    have hs : ∀ d ∈ m, c < d.1 := fun d hd => (List.pairwise_cons.mp h.1).1 d hd
    have hm : Memory.wf m := ⟨(List.pairwise_cons.mp h.1).2, fun d hd => h.2 d (by simp [hd])⟩
    have below : ∀ e, e ≤ c → Memory.byteAt m e = Memory.unlisted e := fun e he =>
      Memory.byteAt_below m e fun d hd => Nat.lt_of_le_of_lt he (hs d hd)
    by_cases h1 : a < c
    · have hac : a ≠ c := Nat.ne_of_lt h1
      have ha := below a h1.le
      by_cases hx : x = Memory.unlisted a
      · by_cases hb : b = a
        · subst hb; simp [Memory.put, Memory.byteAt, h1, hx, hac, ha]
        · simp [Memory.put, h1, hx, hb]
      · by_cases hb : b = a <;> simp [Memory.put, Memory.byteAt, h1, hx, hb]
    · by_cases h2 : a = c
      · subst h2
        have ha := below a le_rfl
        by_cases hx : x = Memory.unlisted a
        · by_cases hb : b = a
          · subst hb; simp [Memory.put, hx, ha]
          · simp [Memory.put, Memory.byteAt, hx, hb]
        · by_cases hb : b = a <;> simp [Memory.put, Memory.byteAt, hx, hb]
      · by_cases hb : b = c
        · subst hb
          simp [Memory.put, Memory.byteAt, h1, h2, Ne.symm h2]
        · simp [Memory.put, Memory.byteAt, h1, h2, hb, ih hm]

/-- The addresses that a replaced byte can add. -/
theorem Memory.mem_put (m : Memory) (a : Nat) (x : Byte) (d : Host.Cell) (hd : d ∈ m.put a x) :
    d ∈ m ∨ (d = (a, x) ∧ x ≠ Memory.unlisted a) := by
  induction m with
  | nil =>
    by_cases hx : x = Memory.unlisted a <;> simp_all [Memory.put]
  | cons c m ih =>
    obtain ⟨c, w⟩ := c
    simp only [Memory.put] at hd
    split at hd
    · split at hd
      · exact .inl hd
      · rcases List.mem_cons.mp hd with rfl | h
        · exact .inr ⟨rfl, by assumption⟩
        · exact .inl h
    · split at hd
      · split at hd
        · exact .inl (List.mem_cons_of_mem _ hd)
        · rcases List.mem_cons.mp hd with rfl | h
          · exact .inr ⟨rfl, by assumption⟩
          · exact .inl (List.mem_cons_of_mem _ h)
      · rcases List.mem_cons.mp hd with rfl | h
        · exact .inl (by simp)
        · rcases ih h with h | h
          · exact .inl (List.mem_cons_of_mem _ h)
          · exact .inr h

/-- Replacing a byte keeps the addresses strictly rising. -/
theorem Memory.put_sorted (m : Memory) (a : Nat) (x : Byte) (h : m.Pairwise (fun c d => c.1 < d.1)) :
    (m.put a x).Pairwise (fun c d => c.1 < d.1) := by
  induction m with
  | nil => simp only [Memory.put]; split <;> simp
  | cons c m ih =>
    obtain ⟨c, w⟩ := c
    have hs := (List.pairwise_cons.mp h).1
    have hm := (List.pairwise_cons.mp h).2
    simp only [Memory.put]
    split
    · rename_i hac
      split
      · exact h
      · refine List.pairwise_cons.mpr ⟨fun d hd => ?_, h⟩
        rcases List.mem_cons.mp hd with rfl | hd
        · exact hac
        · exact Nat.lt_trans hac (hs d hd)
    · rename_i hac
      split
      · rename_i hac'
        split
        · exact hm
        · exact List.pairwise_cons.mpr ⟨fun d hd => by simpa [hac'] using hs d hd, hm⟩
      · rename_i hne
        refine List.pairwise_cons.mpr ⟨fun d hd => ?_, ih hm⟩
        rcases Memory.mem_put m a x d hd with hd | ⟨rfl, -⟩
        · exact hs d hd
        · exact Nat.lt_of_le_of_ne (Nat.not_lt.mp hac) (Ne.symm hne)

/-- Replacing a byte keeps the canonical form. -/
theorem Memory.put_wf (m : Memory) (a : Nat) (x : Byte) (h : m.wf) (ha : a < memSize) : (m.put a x).wf :=
  ⟨Memory.put_sorted m a x h.1, fun d hd => by
    rcases Memory.mem_put m a x d hd with hd | ⟨rfl, hx⟩
    · exact h.2 d hd
    · exact ⟨ha, hx⟩⟩

/-- `write` keeps the canonical form (36_cycle_and_blocks R101). -/
theorem Memory.write_wf (m m' : Memory) (a : Nat) (x : Byte) (h : m.wf) (hw : m.write a x = some m') : m'.wf := by
  simp only [Memory.write] at hw
  split at hw
  · cases hw; exact Memory.put_wf m a x h (by assumption)
  · cases hw

/-! ## Spans -/

/-- A span of reads that stays below 4096 yields its bytes, ascending. -/
theorem Memory.readSpan_eq (m : Memory) (n a : Nat) (h : n = 0 ∨ a + n ≤ memSize) :
    m.readSpan a n = some ((List.range n).map fun k => m.byteAt (a + k)) := by
  induction n generalizing a with
  | zero => rfl
  | succ n ih =>
    have ha : a < memSize := by omega
    have hn : n = 0 ∨ a + 1 + n ≤ memSize := by omega
    simp [Memory.readSpan, Memory.read, ha, ih (a + 1) hn, List.range_succ_eq_map, Nat.add_assoc, Nat.add_comm 1,
      Function.comp_def]

/-- A span of reads that reaches 4096 faults. -/
theorem Memory.readSpan_none (m : Memory) (n a : Nat) (hn : 0 < n) (h : memSize < a + n) : m.readSpan a n = none := by
  induction n generalizing a with
  | zero => omega
  | succ n ih =>
    by_cases ha : a < memSize
    · have := ih (a + 1) (by omega) (by omega)
      simp [Memory.readSpan, this]
    · simp [Memory.readSpan, Memory.read, ha]

/-- A span of writes that stays below 4096 succeeds. -/
theorem Memory.writeSpan_isSome (m : Memory) (bs : List Byte) (a : Nat) (h : bs = [] ∨ a + bs.length ≤ memSize) :
    (m.writeSpan a bs).isSome = true := by
  induction bs generalizing a m with
  | nil => rfl
  | cons x xs ih =>
    simp only [List.length_cons, reduceCtorEq, false_or] at h
    have ha : a < memSize := by omega
    simpa [Memory.writeSpan, Memory.write, ha] using ih (m.put a x) (a + 1) (.inr (by omega))

/-- A span of writes that reaches 4096 faults. -/
theorem Memory.writeSpan_none (m : Memory) (bs : List Byte) (a : Nat) (hn : bs ≠ []) (h : memSize < a + bs.length) :
    m.writeSpan a bs = none := by
  induction bs generalizing a m with
  | nil => exact absurd rfl hn
  | cons x xs ih =>
    by_cases ha : a < memSize
    · simp only [List.length_cons] at h
      have hx : xs ≠ [] := by rintro rfl; simp at h; omega
      simpa [Memory.writeSpan, Memory.write, ha] using ih (m.put a x) (a + 1) hx (by omega)
    · simp [Memory.writeSpan, Memory.write, ha]

/-- Everything a successful span of writes does: it stayed below 4096, it keeps the canonical form, the stored bytes
read back in ascending order, and every other byte reads as before. -/
theorem Memory.writeSpan_spec (m m' : Memory) (a : Nat) (bs : List Byte) (h : m.wf) (hw : m.writeSpan a bs = some m') :
    m'.wf ∧ (bs = [] ∨ a + bs.length ≤ memSize) ∧
      ∀ b, m'.byteAt b = if a ≤ b ∧ b < a + bs.length then bs.getD (b - a) 0 else m.byteAt b := by
  induction bs generalizing a m with
  | nil =>
    cases hw
    exact ⟨h, .inl rfl, fun b => by rw [if_neg (by simp)]⟩
  | cons x xs ih =>
    by_cases ha : a < memSize
    · simp only [Memory.writeSpan, Memory.write, ha, if_true] at hw
      obtain ⟨h1, h2, h3⟩ := ih (m.put a x) (a + 1) (Memory.put_wf m a x h ha) hw
      refine ⟨h1, .inr ?_, fun b => ?_⟩
      · rcases h2 with rfl | h2
        · simp; omega
        · simp only [List.length_cons]; omega
      · rw [h3 b, Memory.byteAt_put m a x b h]
        by_cases hb : b = a
        · subst hb; simp
        · by_cases hb1 : a + 1 ≤ b ∧ b < a + 1 + xs.length
          · have hb2 : a ≤ b ∧ b < a + (x :: xs).length := by simp only [List.length_cons]; omega
            have hsub : b - a = b - (a + 1) + 1 := by omega
            rw [if_pos hb1, if_pos hb2, hsub, List.getD_cons_succ]
          · have hb2 : ¬ (a ≤ b ∧ b < a + (x :: xs).length) := by simp only [List.length_cons]; omega
            rw [if_neg hb1, if_neg hb2, if_neg hb]
    · simp [Memory.writeSpan, Memory.write, ha] at hw

/-! ## Filling memory at boot -/

/-- Filling keeps the canonical form. -/
theorem Memory.fill_wf (m : Memory) (a : Nat) (bs : List Byte) (h : m.wf) : (m.fill a bs).wf := by
  induction bs generalizing a m with
  | nil => exact h
  | cons x xs ih =>
    refine ih _ _ ?_
    by_cases ha : a < memSize
    · simpa [Memory.write, ha] using Memory.put_wf m a x h ha
    · simpa [Memory.write, ha] using h

/-- What each address reads as after a fill that stays below 4096. -/
theorem Memory.byteAt_fill (m : Memory) (a : Nat) (bs : List Byte) (h : m.wf) (hlen : a + bs.length ≤ memSize) (b : Nat) :
    (m.fill a bs).byteAt b = if a ≤ b ∧ b < a + bs.length then bs.getD (b - a) 0 else m.byteAt b := by
  induction bs generalizing a m with
  | nil => rw [if_neg (by simp)]; rfl
  | cons x xs ih =>
    simp only [List.length_cons] at hlen
    have ha : a < memSize := by omega
    have hw : (m.write a x).getD m = m.put a x := by simp [Memory.write, ha]
    rw [Memory.fill, hw, ih (m.put a x) (a + 1) (Memory.put_wf m a x h ha) (by omega), Memory.byteAt_put m a x b h]
    by_cases hb : b = a
    · subst hb; simp
    · by_cases hb1 : a + 1 ≤ b ∧ b < a + 1 + xs.length
      · have hb2 : a ≤ b ∧ b < a + (x :: xs).length := by simp only [List.length_cons]; omega
        have hsub : b - a = b - (a + 1) + 1 := by omega
        rw [if_pos hb1, if_pos hb2, hsub, List.getD_cons_succ]
      · have hb2 : ¬ (a ≤ b ∧ b < a + (x :: xs).length) := by simp only [List.length_cons]; omega
        rw [if_neg hb1, if_neg hb2, if_neg hb]

/-- Reset memory reads as zero everywhere (70_reset_and_hazards R240). -/
@[simp] theorem Memory.reset_byteAt (a : Nat) : State.reset.mem.byteAt a = 0 := rfl

/-- Reset memory is in canonical form. -/
theorem Memory.reset_wf : State.reset.mem.wf := by decide

end Sys2Proof.Machine
end

