-- ==== Sys2Proof/Laws/State.lean ====
section
/-! SUPPORT. What each named update of the state does to each field, one lemma per field, so that no later proof unfolds
a record update. -/

namespace Sys2Proof.Machine

variable (s : State)

/-! ### setReg -/

@[simp] theorem State.setReg_v (x : Reg) (b : Byte) : (s.setReg x b).v = s.v.set x b := rfl
@[simp] theorem State.setReg_i (x : Reg) (b : Byte) : (s.setReg x b).i = s.i := rfl
@[simp] theorem State.setReg_pc (x : Reg) (b : Byte) : (s.setReg x b).pc = s.pc := rfl
@[simp] theorem State.setReg_sp (x : Reg) (b : Byte) : (s.setReg x b).sp = s.sp := rfl
@[simp] theorem State.setReg_stack (x : Reg) (b : Byte) : (s.setReg x b).stack = s.stack := rfl
@[simp] theorem State.setReg_dt (x : Reg) (b : Byte) : (s.setReg x b).dt = s.dt := rfl
@[simp] theorem State.setReg_st (x : Reg) (b : Byte) : (s.setReg x b).st = s.st := rfl
@[simp] theorem State.setReg_fb (x : Reg) (b : Byte) : (s.setReg x b).fb = s.fb := rfl
@[simp] theorem State.setReg_k (x : Reg) (b : Byte) : (s.setReg x b).k = s.k := rfl
@[simp] theorem State.setReg_mem (x : Reg) (b : Byte) : (s.setReg x b).mem = s.mem := rfl
@[simp] theorem State.setReg_status (x : Reg) (b : Byte) : (s.setReg x b).status = s.status := rfl
@[simp] theorem State.setReg_faultCause (x : Reg) (b : Byte) : (s.setReg x b).faultCause = s.faultCause := rfl
@[simp] theorem State.setReg_faultAddr (x : Reg) (b : Byte) : (s.setReg x b).faultAddr = s.faultAddr := rfl
@[simp] theorem State.setReg_ir (x : Reg) (b : Byte) : (s.setReg x b).ir = s.ir := rfl
@[simp] theorem State.setReg_irAddr (x : Reg) (b : Byte) : (s.setReg x b).irAddr = s.irAddr := rfl
@[simp] theorem State.setReg_wait (x : Reg) (b : Byte) : (s.setReg x b).wait = s.wait := rfl
@[simp] theorem State.setReg_params (x : Reg) (b : Byte) : (s.setReg x b).params = s.params := rfl
@[simp] theorem State.setReg_polls (x : Reg) (b : Byte) : (s.setReg x b).polls = s.polls := rfl
@[simp] theorem State.setReg_ticks (x : Reg) (b : Byte) : (s.setReg x b).ticks = s.ticks := rfl
@[simp] theorem State.setReg_draws (x : Reg) (b : Byte) : (s.setReg x b).draws = s.draws := rfl

/-! ### setRegs -/

@[simp] theorem State.setRegs_v (bs : List Byte) : (s.setRegs bs).v = Vector.ofFn fun x : Reg => bs.getD x.val (s.reg x) := rfl
@[simp] theorem State.setRegs_i (bs : List Byte) : (s.setRegs bs).i = s.i := rfl
@[simp] theorem State.setRegs_pc (bs : List Byte) : (s.setRegs bs).pc = s.pc := rfl
@[simp] theorem State.setRegs_sp (bs : List Byte) : (s.setRegs bs).sp = s.sp := rfl
@[simp] theorem State.setRegs_stack (bs : List Byte) : (s.setRegs bs).stack = s.stack := rfl
@[simp] theorem State.setRegs_dt (bs : List Byte) : (s.setRegs bs).dt = s.dt := rfl
@[simp] theorem State.setRegs_st (bs : List Byte) : (s.setRegs bs).st = s.st := rfl
@[simp] theorem State.setRegs_fb (bs : List Byte) : (s.setRegs bs).fb = s.fb := rfl
@[simp] theorem State.setRegs_k (bs : List Byte) : (s.setRegs bs).k = s.k := rfl
@[simp] theorem State.setRegs_mem (bs : List Byte) : (s.setRegs bs).mem = s.mem := rfl
@[simp] theorem State.setRegs_status (bs : List Byte) : (s.setRegs bs).status = s.status := rfl
@[simp] theorem State.setRegs_faultCause (bs : List Byte) : (s.setRegs bs).faultCause = s.faultCause := rfl
@[simp] theorem State.setRegs_faultAddr (bs : List Byte) : (s.setRegs bs).faultAddr = s.faultAddr := rfl
@[simp] theorem State.setRegs_ir (bs : List Byte) : (s.setRegs bs).ir = s.ir := rfl
@[simp] theorem State.setRegs_irAddr (bs : List Byte) : (s.setRegs bs).irAddr = s.irAddr := rfl
@[simp] theorem State.setRegs_wait (bs : List Byte) : (s.setRegs bs).wait = s.wait := rfl
@[simp] theorem State.setRegs_params (bs : List Byte) : (s.setRegs bs).params = s.params := rfl
@[simp] theorem State.setRegs_polls (bs : List Byte) : (s.setRegs bs).polls = s.polls := rfl
@[simp] theorem State.setRegs_ticks (bs : List Byte) : (s.setRegs bs).ticks = s.ticks := rfl
@[simp] theorem State.setRegs_draws (bs : List Byte) : (s.setRegs bs).draws = s.draws := rfl

/-! ### setI -/

@[simp] theorem State.setI_v (a : Word) : (s.setI a).v = s.v := rfl
@[simp] theorem State.setI_i (a : Word) : (s.setI a).i = a := rfl
@[simp] theorem State.setI_pc (a : Word) : (s.setI a).pc = s.pc := rfl
@[simp] theorem State.setI_sp (a : Word) : (s.setI a).sp = s.sp := rfl
@[simp] theorem State.setI_stack (a : Word) : (s.setI a).stack = s.stack := rfl
@[simp] theorem State.setI_dt (a : Word) : (s.setI a).dt = s.dt := rfl
@[simp] theorem State.setI_st (a : Word) : (s.setI a).st = s.st := rfl
@[simp] theorem State.setI_fb (a : Word) : (s.setI a).fb = s.fb := rfl
@[simp] theorem State.setI_k (a : Word) : (s.setI a).k = s.k := rfl
@[simp] theorem State.setI_mem (a : Word) : (s.setI a).mem = s.mem := rfl
@[simp] theorem State.setI_status (a : Word) : (s.setI a).status = s.status := rfl
@[simp] theorem State.setI_faultCause (a : Word) : (s.setI a).faultCause = s.faultCause := rfl
@[simp] theorem State.setI_faultAddr (a : Word) : (s.setI a).faultAddr = s.faultAddr := rfl
@[simp] theorem State.setI_ir (a : Word) : (s.setI a).ir = s.ir := rfl
@[simp] theorem State.setI_irAddr (a : Word) : (s.setI a).irAddr = s.irAddr := rfl
@[simp] theorem State.setI_wait (a : Word) : (s.setI a).wait = s.wait := rfl
@[simp] theorem State.setI_params (a : Word) : (s.setI a).params = s.params := rfl
@[simp] theorem State.setI_polls (a : Word) : (s.setI a).polls = s.polls := rfl
@[simp] theorem State.setI_ticks (a : Word) : (s.setI a).ticks = s.ticks := rfl
@[simp] theorem State.setI_draws (a : Word) : (s.setI a).draws = s.draws := rfl
@[simp] theorem State.setI_reg (a : Word) (y : Reg) : (s.setI a).reg y = s.reg y := rfl

/-! ### setPc -/

@[simp] theorem State.setPc_v (a : Word) : (s.setPc a).v = s.v := rfl
@[simp] theorem State.setPc_i (a : Word) : (s.setPc a).i = s.i := rfl
@[simp] theorem State.setPc_pc (a : Word) : (s.setPc a).pc = a := rfl
@[simp] theorem State.setPc_sp (a : Word) : (s.setPc a).sp = s.sp := rfl
@[simp] theorem State.setPc_stack (a : Word) : (s.setPc a).stack = s.stack := rfl
@[simp] theorem State.setPc_dt (a : Word) : (s.setPc a).dt = s.dt := rfl
@[simp] theorem State.setPc_st (a : Word) : (s.setPc a).st = s.st := rfl
@[simp] theorem State.setPc_fb (a : Word) : (s.setPc a).fb = s.fb := rfl
@[simp] theorem State.setPc_k (a : Word) : (s.setPc a).k = s.k := rfl
@[simp] theorem State.setPc_mem (a : Word) : (s.setPc a).mem = s.mem := rfl
@[simp] theorem State.setPc_status (a : Word) : (s.setPc a).status = s.status := rfl
@[simp] theorem State.setPc_faultCause (a : Word) : (s.setPc a).faultCause = s.faultCause := rfl
@[simp] theorem State.setPc_faultAddr (a : Word) : (s.setPc a).faultAddr = s.faultAddr := rfl
@[simp] theorem State.setPc_ir (a : Word) : (s.setPc a).ir = s.ir := rfl
@[simp] theorem State.setPc_irAddr (a : Word) : (s.setPc a).irAddr = s.irAddr := rfl
@[simp] theorem State.setPc_wait (a : Word) : (s.setPc a).wait = s.wait := rfl
@[simp] theorem State.setPc_params (a : Word) : (s.setPc a).params = s.params := rfl
@[simp] theorem State.setPc_polls (a : Word) : (s.setPc a).polls = s.polls := rfl
@[simp] theorem State.setPc_ticks (a : Word) : (s.setPc a).ticks = s.ticks := rfl
@[simp] theorem State.setPc_draws (a : Word) : (s.setPc a).draws = s.draws := rfl
@[simp] theorem State.setPc_reg (a : Word) (y : Reg) : (s.setPc a).reg y = s.reg y := rfl

/-! ### setMem -/

@[simp] theorem State.setMem_v (m : Memory) : (s.setMem m).v = s.v := rfl
@[simp] theorem State.setMem_i (m : Memory) : (s.setMem m).i = s.i := rfl
@[simp] theorem State.setMem_pc (m : Memory) : (s.setMem m).pc = s.pc := rfl
@[simp] theorem State.setMem_sp (m : Memory) : (s.setMem m).sp = s.sp := rfl
@[simp] theorem State.setMem_stack (m : Memory) : (s.setMem m).stack = s.stack := rfl
@[simp] theorem State.setMem_dt (m : Memory) : (s.setMem m).dt = s.dt := rfl
@[simp] theorem State.setMem_st (m : Memory) : (s.setMem m).st = s.st := rfl
@[simp] theorem State.setMem_fb (m : Memory) : (s.setMem m).fb = s.fb := rfl
@[simp] theorem State.setMem_k (m : Memory) : (s.setMem m).k = s.k := rfl
@[simp] theorem State.setMem_mem (m : Memory) : (s.setMem m).mem = m := rfl
@[simp] theorem State.setMem_status (m : Memory) : (s.setMem m).status = s.status := rfl
@[simp] theorem State.setMem_faultCause (m : Memory) : (s.setMem m).faultCause = s.faultCause := rfl
@[simp] theorem State.setMem_faultAddr (m : Memory) : (s.setMem m).faultAddr = s.faultAddr := rfl
@[simp] theorem State.setMem_ir (m : Memory) : (s.setMem m).ir = s.ir := rfl
@[simp] theorem State.setMem_irAddr (m : Memory) : (s.setMem m).irAddr = s.irAddr := rfl
@[simp] theorem State.setMem_wait (m : Memory) : (s.setMem m).wait = s.wait := rfl
@[simp] theorem State.setMem_params (m : Memory) : (s.setMem m).params = s.params := rfl
@[simp] theorem State.setMem_polls (m : Memory) : (s.setMem m).polls = s.polls := rfl
@[simp] theorem State.setMem_ticks (m : Memory) : (s.setMem m).ticks = s.ticks := rfl
@[simp] theorem State.setMem_draws (m : Memory) : (s.setMem m).draws = s.draws := rfl
@[simp] theorem State.setMem_reg (m : Memory) (y : Reg) : (s.setMem m).reg y = s.reg y := rfl

/-! ### setFb -/

@[simp] theorem State.setFb_v (f : FrameBuffer) : (s.setFb f).v = s.v := rfl
@[simp] theorem State.setFb_i (f : FrameBuffer) : (s.setFb f).i = s.i := rfl
@[simp] theorem State.setFb_pc (f : FrameBuffer) : (s.setFb f).pc = s.pc := rfl
@[simp] theorem State.setFb_sp (f : FrameBuffer) : (s.setFb f).sp = s.sp := rfl
@[simp] theorem State.setFb_stack (f : FrameBuffer) : (s.setFb f).stack = s.stack := rfl
@[simp] theorem State.setFb_dt (f : FrameBuffer) : (s.setFb f).dt = s.dt := rfl
@[simp] theorem State.setFb_st (f : FrameBuffer) : (s.setFb f).st = s.st := rfl
@[simp] theorem State.setFb_fb (f : FrameBuffer) : (s.setFb f).fb = f := rfl
@[simp] theorem State.setFb_k (f : FrameBuffer) : (s.setFb f).k = s.k := rfl
@[simp] theorem State.setFb_mem (f : FrameBuffer) : (s.setFb f).mem = s.mem := rfl
@[simp] theorem State.setFb_status (f : FrameBuffer) : (s.setFb f).status = s.status := rfl
@[simp] theorem State.setFb_faultCause (f : FrameBuffer) : (s.setFb f).faultCause = s.faultCause := rfl
@[simp] theorem State.setFb_faultAddr (f : FrameBuffer) : (s.setFb f).faultAddr = s.faultAddr := rfl
@[simp] theorem State.setFb_ir (f : FrameBuffer) : (s.setFb f).ir = s.ir := rfl
@[simp] theorem State.setFb_irAddr (f : FrameBuffer) : (s.setFb f).irAddr = s.irAddr := rfl
@[simp] theorem State.setFb_wait (f : FrameBuffer) : (s.setFb f).wait = s.wait := rfl
@[simp] theorem State.setFb_params (f : FrameBuffer) : (s.setFb f).params = s.params := rfl
@[simp] theorem State.setFb_polls (f : FrameBuffer) : (s.setFb f).polls = s.polls := rfl
@[simp] theorem State.setFb_ticks (f : FrameBuffer) : (s.setFb f).ticks = s.ticks := rfl
@[simp] theorem State.setFb_draws (f : FrameBuffer) : (s.setFb f).draws = s.draws := rfl
@[simp] theorem State.setFb_reg (f : FrameBuffer) (y : Reg) : (s.setFb f).reg y = s.reg y := rfl

/-! ### setStatus -/

@[simp] theorem State.setStatus_v (t : Status) : (s.setStatus t).v = s.v := rfl
@[simp] theorem State.setStatus_i (t : Status) : (s.setStatus t).i = s.i := rfl
@[simp] theorem State.setStatus_pc (t : Status) : (s.setStatus t).pc = s.pc := rfl
@[simp] theorem State.setStatus_sp (t : Status) : (s.setStatus t).sp = s.sp := rfl
@[simp] theorem State.setStatus_stack (t : Status) : (s.setStatus t).stack = s.stack := rfl
@[simp] theorem State.setStatus_dt (t : Status) : (s.setStatus t).dt = s.dt := rfl
@[simp] theorem State.setStatus_st (t : Status) : (s.setStatus t).st = s.st := rfl
@[simp] theorem State.setStatus_fb (t : Status) : (s.setStatus t).fb = s.fb := rfl
@[simp] theorem State.setStatus_k (t : Status) : (s.setStatus t).k = s.k := rfl
@[simp] theorem State.setStatus_mem (t : Status) : (s.setStatus t).mem = s.mem := rfl
@[simp] theorem State.setStatus_status (t : Status) : (s.setStatus t).status = t := rfl
@[simp] theorem State.setStatus_faultCause (t : Status) : (s.setStatus t).faultCause = s.faultCause := rfl
@[simp] theorem State.setStatus_faultAddr (t : Status) : (s.setStatus t).faultAddr = s.faultAddr := rfl
@[simp] theorem State.setStatus_ir (t : Status) : (s.setStatus t).ir = s.ir := rfl
@[simp] theorem State.setStatus_irAddr (t : Status) : (s.setStatus t).irAddr = s.irAddr := rfl
@[simp] theorem State.setStatus_wait (t : Status) : (s.setStatus t).wait = s.wait := rfl
@[simp] theorem State.setStatus_params (t : Status) : (s.setStatus t).params = s.params := rfl
@[simp] theorem State.setStatus_polls (t : Status) : (s.setStatus t).polls = s.polls := rfl
@[simp] theorem State.setStatus_ticks (t : Status) : (s.setStatus t).ticks = s.ticks := rfl
@[simp] theorem State.setStatus_draws (t : Status) : (s.setStatus t).draws = s.draws := rfl
@[simp] theorem State.setStatus_reg (t : Status) (y : Reg) : (s.setStatus t).reg y = s.reg y := rfl

/-! ### setWait -/

@[simp] theorem State.setWait_v (w : Option Reg) : (s.setWait w).v = s.v := rfl
@[simp] theorem State.setWait_i (w : Option Reg) : (s.setWait w).i = s.i := rfl
@[simp] theorem State.setWait_pc (w : Option Reg) : (s.setWait w).pc = s.pc := rfl
@[simp] theorem State.setWait_sp (w : Option Reg) : (s.setWait w).sp = s.sp := rfl
@[simp] theorem State.setWait_stack (w : Option Reg) : (s.setWait w).stack = s.stack := rfl
@[simp] theorem State.setWait_dt (w : Option Reg) : (s.setWait w).dt = s.dt := rfl
@[simp] theorem State.setWait_st (w : Option Reg) : (s.setWait w).st = s.st := rfl
@[simp] theorem State.setWait_fb (w : Option Reg) : (s.setWait w).fb = s.fb := rfl
@[simp] theorem State.setWait_k (w : Option Reg) : (s.setWait w).k = s.k := rfl
@[simp] theorem State.setWait_mem (w : Option Reg) : (s.setWait w).mem = s.mem := rfl
@[simp] theorem State.setWait_status (w : Option Reg) : (s.setWait w).status = s.status := rfl
@[simp] theorem State.setWait_faultCause (w : Option Reg) : (s.setWait w).faultCause = s.faultCause := rfl
@[simp] theorem State.setWait_faultAddr (w : Option Reg) : (s.setWait w).faultAddr = s.faultAddr := rfl
@[simp] theorem State.setWait_ir (w : Option Reg) : (s.setWait w).ir = s.ir := rfl
@[simp] theorem State.setWait_irAddr (w : Option Reg) : (s.setWait w).irAddr = s.irAddr := rfl
@[simp] theorem State.setWait_wait (w : Option Reg) : (s.setWait w).wait = w := rfl
@[simp] theorem State.setWait_params (w : Option Reg) : (s.setWait w).params = s.params := rfl
@[simp] theorem State.setWait_polls (w : Option Reg) : (s.setWait w).polls = s.polls := rfl
@[simp] theorem State.setWait_ticks (w : Option Reg) : (s.setWait w).ticks = s.ticks := rfl
@[simp] theorem State.setWait_draws (w : Option Reg) : (s.setWait w).draws = s.draws := rfl
@[simp] theorem State.setWait_reg (w : Option Reg) (y : Reg) : (s.setWait w).reg y = s.reg y := rfl

/-! ### setStack -/

@[simp] theorem State.setStack_v (t : Vector Word stackDepth) (p : Byte) : (s.setStack t p).v = s.v := rfl
@[simp] theorem State.setStack_i (t : Vector Word stackDepth) (p : Byte) : (s.setStack t p).i = s.i := rfl
@[simp] theorem State.setStack_pc (t : Vector Word stackDepth) (p : Byte) : (s.setStack t p).pc = s.pc := rfl
@[simp] theorem State.setStack_sp (t : Vector Word stackDepth) (p : Byte) : (s.setStack t p).sp = p := rfl
@[simp] theorem State.setStack_stack (t : Vector Word stackDepth) (p : Byte) : (s.setStack t p).stack = t := rfl
@[simp] theorem State.setStack_dt (t : Vector Word stackDepth) (p : Byte) : (s.setStack t p).dt = s.dt := rfl
@[simp] theorem State.setStack_st (t : Vector Word stackDepth) (p : Byte) : (s.setStack t p).st = s.st := rfl
@[simp] theorem State.setStack_fb (t : Vector Word stackDepth) (p : Byte) : (s.setStack t p).fb = s.fb := rfl
@[simp] theorem State.setStack_k (t : Vector Word stackDepth) (p : Byte) : (s.setStack t p).k = s.k := rfl
@[simp] theorem State.setStack_mem (t : Vector Word stackDepth) (p : Byte) : (s.setStack t p).mem = s.mem := rfl
@[simp] theorem State.setStack_status (t : Vector Word stackDepth) (p : Byte) : (s.setStack t p).status = s.status := rfl
@[simp] theorem State.setStack_faultCause (t : Vector Word stackDepth) (p : Byte) : (s.setStack t p).faultCause = s.faultCause := rfl
@[simp] theorem State.setStack_faultAddr (t : Vector Word stackDepth) (p : Byte) : (s.setStack t p).faultAddr = s.faultAddr := rfl
@[simp] theorem State.setStack_ir (t : Vector Word stackDepth) (p : Byte) : (s.setStack t p).ir = s.ir := rfl
@[simp] theorem State.setStack_irAddr (t : Vector Word stackDepth) (p : Byte) : (s.setStack t p).irAddr = s.irAddr := rfl
@[simp] theorem State.setStack_wait (t : Vector Word stackDepth) (p : Byte) : (s.setStack t p).wait = s.wait := rfl
@[simp] theorem State.setStack_params (t : Vector Word stackDepth) (p : Byte) : (s.setStack t p).params = s.params := rfl
@[simp] theorem State.setStack_polls (t : Vector Word stackDepth) (p : Byte) : (s.setStack t p).polls = s.polls := rfl
@[simp] theorem State.setStack_ticks (t : Vector Word stackDepth) (p : Byte) : (s.setStack t p).ticks = s.ticks := rfl
@[simp] theorem State.setStack_draws (t : Vector Word stackDepth) (p : Byte) : (s.setStack t p).draws = s.draws := rfl
@[simp] theorem State.setStack_reg (t : Vector Word stackDepth) (p : Byte) (y : Reg) : (s.setStack t p).reg y = s.reg y := rfl

/-! ### retire -/

@[simp] theorem State.retire_v : (s.retire).v = s.v := rfl
@[simp] theorem State.retire_i : (s.retire).i = s.i := rfl
@[simp] theorem State.retire_pc : (s.retire).pc = s.pc + 2 := rfl
@[simp] theorem State.retire_sp : (s.retire).sp = s.sp := rfl
@[simp] theorem State.retire_stack : (s.retire).stack = s.stack := rfl
@[simp] theorem State.retire_dt : (s.retire).dt = s.dt := rfl
@[simp] theorem State.retire_st : (s.retire).st = s.st := rfl
@[simp] theorem State.retire_fb : (s.retire).fb = s.fb := rfl
@[simp] theorem State.retire_k : (s.retire).k = s.k := rfl
@[simp] theorem State.retire_mem : (s.retire).mem = s.mem := rfl
@[simp] theorem State.retire_status : (s.retire).status = s.status := rfl
@[simp] theorem State.retire_faultCause : (s.retire).faultCause = s.faultCause := rfl
@[simp] theorem State.retire_faultAddr : (s.retire).faultAddr = s.faultAddr := rfl
@[simp] theorem State.retire_ir : (s.retire).ir = s.ir := rfl
@[simp] theorem State.retire_irAddr : (s.retire).irAddr = s.irAddr := rfl
@[simp] theorem State.retire_wait : (s.retire).wait = s.wait := rfl
@[simp] theorem State.retire_params : (s.retire).params = s.params := rfl
@[simp] theorem State.retire_polls : (s.retire).polls = s.polls := rfl
@[simp] theorem State.retire_ticks : (s.retire).ticks = s.ticks := rfl
@[simp] theorem State.retire_draws : (s.retire).draws = s.draws := rfl
@[simp] theorem State.retire_reg (y : Reg) : (s.retire).reg y = s.reg y := rfl

/-! ### raise -/

@[simp] theorem State.raise_v (c : Cause) (a : Nat) : (s.raise c a).v = s.v := rfl
@[simp] theorem State.raise_i (c : Cause) (a : Nat) : (s.raise c a).i = s.i := rfl
@[simp] theorem State.raise_pc (c : Cause) (a : Nat) : (s.raise c a).pc = s.pc := rfl
@[simp] theorem State.raise_sp (c : Cause) (a : Nat) : (s.raise c a).sp = s.sp := rfl
@[simp] theorem State.raise_stack (c : Cause) (a : Nat) : (s.raise c a).stack = s.stack := rfl
@[simp] theorem State.raise_dt (c : Cause) (a : Nat) : (s.raise c a).dt = s.dt := rfl
@[simp] theorem State.raise_st (c : Cause) (a : Nat) : (s.raise c a).st = s.st := rfl
@[simp] theorem State.raise_fb (c : Cause) (a : Nat) : (s.raise c a).fb = s.fb := rfl
@[simp] theorem State.raise_k (c : Cause) (a : Nat) : (s.raise c a).k = s.k := rfl
@[simp] theorem State.raise_mem (c : Cause) (a : Nat) : (s.raise c a).mem = s.mem := rfl
@[simp] theorem State.raise_status (c : Cause) (a : Nat) : (s.raise c a).status = .faulted := rfl
@[simp] theorem State.raise_faultCause (c : Cause) (a : Nat) : (s.raise c a).faultCause = c := rfl
@[simp] theorem State.raise_faultAddr (c : Cause) (a : Nat) : (s.raise c a).faultAddr = a := rfl
@[simp] theorem State.raise_ir (c : Cause) (a : Nat) : (s.raise c a).ir = s.ir := rfl
@[simp] theorem State.raise_irAddr (c : Cause) (a : Nat) : (s.raise c a).irAddr = s.irAddr := rfl
@[simp] theorem State.raise_wait (c : Cause) (a : Nat) : (s.raise c a).wait = s.wait := rfl
@[simp] theorem State.raise_params (c : Cause) (a : Nat) : (s.raise c a).params = s.params := rfl
@[simp] theorem State.raise_polls (c : Cause) (a : Nat) : (s.raise c a).polls = s.polls := rfl
@[simp] theorem State.raise_ticks (c : Cause) (a : Nat) : (s.raise c a).ticks = s.ticks := rfl
@[simp] theorem State.raise_draws (c : Cause) (a : Nat) : (s.raise c a).draws = s.draws := rfl
@[simp] theorem State.raise_reg (c : Cause) (a : Nat) (y : Reg) : (s.raise c a).reg y = s.reg y := rfl

/-! ### setDt -/

@[simp] theorem State.setDt_v (b : Byte) : (s.setDt b).v = s.v := rfl
@[simp] theorem State.setDt_i (b : Byte) : (s.setDt b).i = s.i := rfl
@[simp] theorem State.setDt_pc (b : Byte) : (s.setDt b).pc = s.pc := rfl
@[simp] theorem State.setDt_sp (b : Byte) : (s.setDt b).sp = s.sp := rfl
@[simp] theorem State.setDt_stack (b : Byte) : (s.setDt b).stack = s.stack := rfl
@[simp] theorem State.setDt_dt (b : Byte) : (s.setDt b).dt = b := rfl
@[simp] theorem State.setDt_st (b : Byte) : (s.setDt b).st = s.st := rfl
@[simp] theorem State.setDt_fb (b : Byte) : (s.setDt b).fb = s.fb := rfl
@[simp] theorem State.setDt_k (b : Byte) : (s.setDt b).k = s.k := rfl
@[simp] theorem State.setDt_mem (b : Byte) : (s.setDt b).mem = s.mem := rfl
@[simp] theorem State.setDt_status (b : Byte) : (s.setDt b).status = s.status := rfl
@[simp] theorem State.setDt_faultCause (b : Byte) : (s.setDt b).faultCause = s.faultCause := rfl
@[simp] theorem State.setDt_faultAddr (b : Byte) : (s.setDt b).faultAddr = s.faultAddr := rfl
@[simp] theorem State.setDt_ir (b : Byte) : (s.setDt b).ir = s.ir := rfl
@[simp] theorem State.setDt_irAddr (b : Byte) : (s.setDt b).irAddr = s.irAddr := rfl
@[simp] theorem State.setDt_wait (b : Byte) : (s.setDt b).wait = s.wait := rfl
@[simp] theorem State.setDt_params (b : Byte) : (s.setDt b).params = s.params := rfl
@[simp] theorem State.setDt_polls (b : Byte) : (s.setDt b).polls = s.polls := rfl
@[simp] theorem State.setDt_ticks (b : Byte) : (s.setDt b).ticks = s.ticks := rfl
@[simp] theorem State.setDt_draws (b : Byte) : (s.setDt b).draws = s.draws := rfl
@[simp] theorem State.setDt_reg (b : Byte) (y : Reg) : (s.setDt b).reg y = s.reg y := rfl

/-! ### setSt -/

@[simp] theorem State.setSt_v (b : Byte) : (s.setSt b).v = s.v := rfl
@[simp] theorem State.setSt_i (b : Byte) : (s.setSt b).i = s.i := rfl
@[simp] theorem State.setSt_pc (b : Byte) : (s.setSt b).pc = s.pc := rfl
@[simp] theorem State.setSt_sp (b : Byte) : (s.setSt b).sp = s.sp := rfl
@[simp] theorem State.setSt_stack (b : Byte) : (s.setSt b).stack = s.stack := rfl
@[simp] theorem State.setSt_dt (b : Byte) : (s.setSt b).dt = s.dt := rfl
@[simp] theorem State.setSt_st (b : Byte) : (s.setSt b).st = b := rfl
@[simp] theorem State.setSt_fb (b : Byte) : (s.setSt b).fb = s.fb := rfl
@[simp] theorem State.setSt_k (b : Byte) : (s.setSt b).k = s.k := rfl
@[simp] theorem State.setSt_mem (b : Byte) : (s.setSt b).mem = s.mem := rfl
@[simp] theorem State.setSt_status (b : Byte) : (s.setSt b).status = s.status := rfl
@[simp] theorem State.setSt_faultCause (b : Byte) : (s.setSt b).faultCause = s.faultCause := rfl
@[simp] theorem State.setSt_faultAddr (b : Byte) : (s.setSt b).faultAddr = s.faultAddr := rfl
@[simp] theorem State.setSt_ir (b : Byte) : (s.setSt b).ir = s.ir := rfl
@[simp] theorem State.setSt_irAddr (b : Byte) : (s.setSt b).irAddr = s.irAddr := rfl
@[simp] theorem State.setSt_wait (b : Byte) : (s.setSt b).wait = s.wait := rfl
@[simp] theorem State.setSt_params (b : Byte) : (s.setSt b).params = s.params := rfl
@[simp] theorem State.setSt_polls (b : Byte) : (s.setSt b).polls = s.polls := rfl
@[simp] theorem State.setSt_ticks (b : Byte) : (s.setSt b).ticks = s.ticks := rfl
@[simp] theorem State.setSt_draws (b : Byte) : (s.setSt b).draws = s.draws := rfl
@[simp] theorem State.setSt_reg (b : Byte) (y : Reg) : (s.setSt b).reg y = s.reg y := rfl

/-! ### tick -/

@[simp] theorem State.tick_v : (s.tick).v = s.v := rfl
@[simp] theorem State.tick_i : (s.tick).i = s.i := rfl
@[simp] theorem State.tick_pc : (s.tick).pc = s.pc := rfl
@[simp] theorem State.tick_sp : (s.tick).sp = s.sp := rfl
@[simp] theorem State.tick_stack : (s.tick).stack = s.stack := rfl
@[simp] theorem State.tick_dt : (s.tick).dt = tickTimer s.dt := rfl
@[simp] theorem State.tick_st : (s.tick).st = tickTimer s.st := rfl
@[simp] theorem State.tick_fb : (s.tick).fb = s.fb := rfl
@[simp] theorem State.tick_k : (s.tick).k = s.k := rfl
@[simp] theorem State.tick_mem : (s.tick).mem = s.mem := rfl
@[simp] theorem State.tick_status : (s.tick).status = s.status := rfl
@[simp] theorem State.tick_faultCause : (s.tick).faultCause = s.faultCause := rfl
@[simp] theorem State.tick_faultAddr : (s.tick).faultAddr = s.faultAddr := rfl
@[simp] theorem State.tick_ir : (s.tick).ir = s.ir := rfl
@[simp] theorem State.tick_irAddr : (s.tick).irAddr = s.irAddr := rfl
@[simp] theorem State.tick_wait : (s.tick).wait = s.wait := rfl
@[simp] theorem State.tick_params : (s.tick).params = s.params := rfl
@[simp] theorem State.tick_polls : (s.tick).polls = s.polls := rfl
@[simp] theorem State.tick_ticks : (s.tick).ticks = s.ticks := rfl
@[simp] theorem State.tick_draws : (s.tick).draws = s.draws := rfl
@[simp] theorem State.tick_reg (y : Reg) : (s.tick).reg y = s.reg y := rfl

/-! ### afterDraw -/

@[simp] theorem State.afterDraw_v : (s.afterDraw).v = s.v := rfl
@[simp] theorem State.afterDraw_i : (s.afterDraw).i = s.i := rfl
@[simp] theorem State.afterDraw_pc : (s.afterDraw).pc = s.pc := rfl
@[simp] theorem State.afterDraw_sp : (s.afterDraw).sp = s.sp := rfl
@[simp] theorem State.afterDraw_stack : (s.afterDraw).stack = s.stack := rfl
@[simp] theorem State.afterDraw_dt : (s.afterDraw).dt = s.dt := rfl
@[simp] theorem State.afterDraw_st : (s.afterDraw).st = s.st := rfl
@[simp] theorem State.afterDraw_fb : (s.afterDraw).fb = s.fb := rfl
@[simp] theorem State.afterDraw_k : (s.afterDraw).k = s.k := rfl
@[simp] theorem State.afterDraw_mem : (s.afterDraw).mem = s.mem := rfl
@[simp] theorem State.afterDraw_status : (s.afterDraw).status = s.status := rfl
@[simp] theorem State.afterDraw_faultCause : (s.afterDraw).faultCause = s.faultCause := rfl
@[simp] theorem State.afterDraw_faultAddr : (s.afterDraw).faultAddr = s.faultAddr := rfl
@[simp] theorem State.afterDraw_ir : (s.afterDraw).ir = s.ir := rfl
@[simp] theorem State.afterDraw_irAddr : (s.afterDraw).irAddr = s.irAddr := rfl
@[simp] theorem State.afterDraw_wait : (s.afterDraw).wait = s.wait := rfl
@[simp] theorem State.afterDraw_params : (s.afterDraw).params = s.params := rfl
@[simp] theorem State.afterDraw_polls : (s.afterDraw).polls = s.polls := rfl
@[simp] theorem State.afterDraw_ticks : (s.afterDraw).ticks = s.ticks := rfl
@[simp] theorem State.afterDraw_draws : (s.afterDraw).draws = s.draws.advance := rfl
@[simp] theorem State.afterDraw_reg (y : Reg) : (s.afterDraw).reg y = s.reg y := rfl

/-! ### afterPoll -/

@[simp] theorem State.afterPoll_v : (s.afterPoll).v = s.v := rfl
@[simp] theorem State.afterPoll_i : (s.afterPoll).i = s.i := rfl
@[simp] theorem State.afterPoll_pc : (s.afterPoll).pc = s.pc := rfl
@[simp] theorem State.afterPoll_sp : (s.afterPoll).sp = s.sp := rfl
@[simp] theorem State.afterPoll_stack : (s.afterPoll).stack = s.stack := rfl
@[simp] theorem State.afterPoll_dt : (s.afterPoll).dt = s.dt := rfl
@[simp] theorem State.afterPoll_st : (s.afterPoll).st = s.st := rfl
@[simp] theorem State.afterPoll_fb : (s.afterPoll).fb = s.fb := rfl
@[simp] theorem State.afterPoll_k : (s.afterPoll).k = s.k := rfl
@[simp] theorem State.afterPoll_mem : (s.afterPoll).mem = s.mem := rfl
@[simp] theorem State.afterPoll_status : (s.afterPoll).status = s.status := rfl
@[simp] theorem State.afterPoll_faultCause : (s.afterPoll).faultCause = s.faultCause := rfl
@[simp] theorem State.afterPoll_faultAddr : (s.afterPoll).faultAddr = s.faultAddr := rfl
@[simp] theorem State.afterPoll_ir : (s.afterPoll).ir = s.ir := rfl
@[simp] theorem State.afterPoll_irAddr : (s.afterPoll).irAddr = s.irAddr := rfl
@[simp] theorem State.afterPoll_wait : (s.afterPoll).wait = s.wait := rfl
@[simp] theorem State.afterPoll_params : (s.afterPoll).params = s.params := rfl
@[simp] theorem State.afterPoll_polls : (s.afterPoll).polls = s.polls.advance := rfl
@[simp] theorem State.afterPoll_ticks : (s.afterPoll).ticks = s.ticks := rfl
@[simp] theorem State.afterPoll_draws : (s.afterPoll).draws = s.draws := rfl
@[simp] theorem State.afterPoll_reg (y : Reg) : (s.afterPoll).reg y = s.reg y := rfl

/-! ### setK -/

@[simp] theorem State.setK_v (c : Option Key) : (s.setK c).v = s.v := rfl
@[simp] theorem State.setK_i (c : Option Key) : (s.setK c).i = s.i := rfl
@[simp] theorem State.setK_pc (c : Option Key) : (s.setK c).pc = s.pc := rfl
@[simp] theorem State.setK_sp (c : Option Key) : (s.setK c).sp = s.sp := rfl
@[simp] theorem State.setK_stack (c : Option Key) : (s.setK c).stack = s.stack := rfl
@[simp] theorem State.setK_dt (c : Option Key) : (s.setK c).dt = s.dt := rfl
@[simp] theorem State.setK_st (c : Option Key) : (s.setK c).st = s.st := rfl
@[simp] theorem State.setK_fb (c : Option Key) : (s.setK c).fb = s.fb := rfl
@[simp] theorem State.setK_k (c : Option Key) : (s.setK c).k = c := rfl
@[simp] theorem State.setK_mem (c : Option Key) : (s.setK c).mem = s.mem := rfl
@[simp] theorem State.setK_status (c : Option Key) : (s.setK c).status = s.status := rfl
@[simp] theorem State.setK_faultCause (c : Option Key) : (s.setK c).faultCause = s.faultCause := rfl
@[simp] theorem State.setK_faultAddr (c : Option Key) : (s.setK c).faultAddr = s.faultAddr := rfl
@[simp] theorem State.setK_ir (c : Option Key) : (s.setK c).ir = s.ir := rfl
@[simp] theorem State.setK_irAddr (c : Option Key) : (s.setK c).irAddr = s.irAddr := rfl
@[simp] theorem State.setK_wait (c : Option Key) : (s.setK c).wait = s.wait := rfl
@[simp] theorem State.setK_params (c : Option Key) : (s.setK c).params = s.params := rfl
@[simp] theorem State.setK_polls (c : Option Key) : (s.setK c).polls = s.polls := rfl
@[simp] theorem State.setK_ticks (c : Option Key) : (s.setK c).ticks = s.ticks := rfl
@[simp] theorem State.setK_draws (c : Option Key) : (s.setK c).draws = s.draws := rfl
@[simp] theorem State.setK_reg (c : Option Key) (y : Reg) : (s.setK c).reg y = s.reg y := rfl

/-! ### Reading a register after a write -/

/-- A register read after a register write (36_cycle_and_blocks R102). -/
@[simp] theorem State.setReg_reg (x : Reg) (b : Byte) (y : Reg) :
    (s.setReg x b).reg y = if y = x then b else s.reg y := by
  by_cases h : y = x
  · subst h; simp [State.reg, State.setReg]
  · have h' : x.val ≠ y.val := fun e => h (Fin.ext e.symm)
    simp [State.reg, State.setReg, h, Vector.getElem_set_ne _ _ h']

/-- A register read after a block of registers has been written (43_index_memory R185). -/
@[simp] theorem State.setRegs_reg (bs : List Byte) (y : Reg) :
    (s.setRegs bs).reg y = bs.getD y.val (s.reg y) := by
  simp [State.reg, State.setRegs]

end Sys2Proof.Machine
end

