-- ==== Sys2Proof/Laws/Ops.lean ====
section
/-! SUPPORT. What each shared operation over the state can do, said once (spec/36_cycle_and_blocks.md R103, R109, R114;
42_alu R173; 43_index_memory R183, R184). -/

namespace Sys2Proof.Machine

variable (s : State)

/-! ## Skips and retire -/

/-- A skip and the retire after it: plus 4 when the condition holds, else plus 2 (41_skips). -/
theorem State.skipIf_retire (c : Bool) :
    (s.skipIf c).retire = s.setPc (if c then s.pc + 4 else s.pc + 2) := by
  cases c
  · rfl
  · simp only [State.skipIf, State.retire, State.setPc, if_true, BitVec.add_assoc]
    rfl

/-! ## The call stack -/

/-- A push below the depth. -/
theorem State.push_ok (w : Word) (h : s.sp.toNat < stackDepth) :
    s.push w = .ok (s.setStack (s.stack.set s.sp.toNat w h) (s.sp + 1)) := by
  simp [State.push, Nat.ne_of_lt h, h]

/-- A push at the depth. -/
theorem State.push_full (w : Word) (h : s.sp.toNat = stackDepth) :
    s.push w = .error (.next (s.raise .stackOverflow 0)) := by
  simp [State.push, h]

/-- A push above the depth, in a state that no run reaches. -/
theorem State.push_beyond (w : Word) (h : stackDepth < s.sp.toNat) :
    s.push w = .error (.refused (.stackPointerBeyondDepth s.sp)) := by
  have h1 : ¬ s.sp.toNat = stackDepth := by omega
  have h2 : ¬ s.sp.toNat < stackDepth := by omega
  simp [State.push, h1, h2]

/-- A pop with entries on the stack. -/
theorem State.pop_ok (h0 : 0 < s.sp.toNat) (h : s.sp.toNat - 1 < stackDepth) :
    s.pop = .ok (s.stack[s.sp.toNat - 1], s.setStack s.stack (s.sp - 1)) := by
  have h1 : ¬ s.sp.toNat = 0 := by omega
  simp only [State.pop, h1, if_false, h, dif_pos]

/-- A pop of the empty stack. -/
theorem State.pop_empty (h : s.sp.toNat = 0) : s.pop = .error (.next (s.raise .stackUnderflow 0)) := by
  simp [State.pop, h]

/-- A pop above the depth, in a state that no run reaches. -/
theorem State.pop_beyond (h : stackDepth < s.sp.toNat) :
    s.pop = .error (.refused (.stackPointerBeyondDepth s.sp)) := by
  have h1 : ¬ s.sp.toNat = 0 := by omega
  have h2 : ¬ s.sp.toNat - 1 < stackDepth := by omega
  simp only [State.pop, h1, if_false, h2, dif_neg, not_false_eq_true]

/-! ## Flag writes -/

/-- The flag write of the arithmetic forms touches the registers and the drawn bytes only. -/
theorem State.writeArithFlag_eq (f : Bool) :
    s.writeArithFlag f = { s with v := (s.writeArithFlag f).v, draws := (s.writeArithFlag f).draws } := by
  unfold State.writeArithFlag
  split <;> rfl

/-- Every register after the flag write of the arithmetic forms (42_alu R173). -/
theorem State.writeArithFlag_reg (f : Bool) (y : Reg) :
    (s.writeArithFlag f).reg y =
      match s.params.arithVf with
      | .unchanged => s.reg y
      | .carryBorrow => if y = flagReg then flagByte f else s.reg y
      | .any => if y = flagReg then s.drawnByte else s.reg y := by
  unfold State.writeArithFlag
  cases s.params.arithVf <;> simp

/-- The drawn bytes after the flag write of the arithmetic forms: one is taken under the policy any. -/
theorem State.writeArithFlag_draws (f : Bool) :
    (s.writeArithFlag f).draws = if s.params.arithVf = .any then s.draws.advance else s.draws := by
  unfold State.writeArithFlag
  cases s.params.arithVf <;> simp

/-- The flag write of DRAW touches the registers only. -/
theorem State.writeCollision_eq (hit : Bool) : s.writeCollision hit = { s with v := (s.writeCollision hit).v } := by
  cases hit <;> rfl

/-- Every register after the flag write of DRAW (44_display R191). -/
theorem State.writeCollision_reg (hit : Bool) (y : Reg) :
    (s.writeCollision hit).reg y = if hit = true ∧ y = flagReg then 1 else s.reg y := by
  cases hit <;> simp [State.writeCollision]

/-! ## Storing at the index register -/

/-- Everything a store at I can do: the bytes are stored and it retires, or the DataWrite fault is taken and nothing else
changes (43_index_memory R183, R184). -/
theorem State.storeAtIndex_cases (bytes : List Byte) :
    (∃ m, s.mem.writeSpan s.base bytes = some m ∧ s.storeAtIndex bytes = .next (s.setMem m).retire) ∨
    (s.mem.writeSpan s.base bytes = none ∧
      s.storeAtIndex bytes = .next (s.raise .dataWrite (lowestOffending s.base))) := by
  unfold State.storeAtIndex
  cases h : s.mem.writeSpan s.base bytes with
  | some m => exact .inl ⟨m, rfl, rfl⟩
  | none => exact .inr ⟨rfl, rfl⟩

/-- How many bytes DUMP stores: the registers it counts, of which there are at most 16. -/
theorem State.firstRegs_length (n : Nat) (h : n ≤ 16) : (s.firstRegs n).length = n := by
  simp [State.firstRegs, h]

/-- The bytes DUMP stores are the registers in order. -/
theorem State.firstRegs_getD (n : Nat) (y : Reg) (h : y.val < n) : (s.firstRegs n).getD y.val 0 = s.reg y := by
  have hy := y.isLt
  simp [State.firstRegs, State.reg, List.getD_eq_getElem?_getD, h]

/-- DUMP and LOAD move at most 16 registers. -/
theorem State.blockLength_le (x : Count) : s.blockLength x ≤ 16 := by
  have := x.isLt
  unfold State.blockLength
  split <;> omega

/-! ## The key wait -/

/-- A poll of the key wait leaves everything but the registers, PC, STATUS and the wait itself (45_keyboard_timers R202). -/
theorem State.keyWaitPoll_eq (x : Reg) (p : Poll) :
    s.keyWaitPoll x p =
      { s with
        v := (s.keyWaitPoll x p).v
        pc := (s.keyWaitPoll x p).pc
        status := (s.keyWaitPoll x p).status
        wait := (s.keyWaitPoll x p).wait } := by
  cases p <;> rfl

end Sys2Proof.Machine
end

