-- ==== Sys2Proof/Laws/Cycle.lean ====
section
/-! SUPPORT. What the cycle can do, said once (spec/36_cycle_and_blocks.md R106, R107, R116; 60_exceptions R220, R222). -/

namespace Sys2Proof.Machine

variable (s : State)

/-! ## Fetch -/

/-- A fetch with both bytes in range (36_cycle_and_blocks R107). -/
theorem State.fetch_ok (h : s.pc.toNat ≤ 4094) : s.fetch = .ok { s with ir := s.wordAtPc, irAddr := s.pc } := by
  have h1 : s.pc.toNat < memSize := by simp only [memSize]; omega
  have h2 : s.pc.toNat + 1 < memSize := by simp only [memSize]; omega
  simp only [State.fetch, Memory.read, h1, h2, if_true, State.wordAtPc]

/-- A fetch whose second byte is out of range. -/
theorem State.fetch_last (h : s.pc.toNat = 4095) : s.fetch = .error (s.raise .fetchRange memSize) := by
  simp [State.fetch, Memory.read, h]

/-- A fetch with PC out of range. -/
theorem State.fetch_beyond (h : memSize ≤ s.pc.toNat) : s.fetch = .error (s.raise .pcRange s.pc.toNat) := by
  have h1 : ¬ s.pc.toNat < memSize := by omega
  simp only [State.fetch, Memory.read, h1, if_false]

/-! ## The gap -/

/-- The gap touches the timers and the tick schedule only. -/
theorem State.gap_eq : s.gap = { s with dt := s.gap.dt, st := s.gap.st, ticks := s.gap.ticks } := by
  unfold State.gap
  split <;> rfl

/-- No gap inside a key wait or after the run has ended (36_cycle_and_blocks R116). -/
theorem State.gap_none (h : s.status ≠ .running ∨ s.wait ≠ none) : s.gap = s := by
  unfold State.gap
  rw [if_neg]
  rintro ⟨h1, h2⟩
  rcases h with h | h
  · exact h h1
  · exact h h2

/-- A cycle that ended in a next state is followed by its gap. -/
theorem closeCycle_next {o : Outcome} {t : State} (h : closeCycle o = .next t) : ∃ u, o = .next u ∧ t = u.gap := by
  cases o with
  | next u => exact ⟨u, rfl, by simpa [closeCycle] using h.symm⟩
  | fault r => cases h
  | refused r => cases h

/-! ## The step -/

/-- The cycle of a state in which it reaches its execute step (36_cycle_and_blocks R106). -/
theorem step_fetched (h : s.CanFetch) : step s = closeCycle (exec (decodeWord s.wordAtPc) s.fetched) := by
  obtain ⟨h1, h2, h3, h4⟩ := h
  have run : ∀ k : Option Key, runFetched (s.beginCycle.setK k) =
      closeCycle (exec (decodeWord s.wordAtPc)
        { s with k := k, polls := s.polls.advance, ir := s.wordAtPc, irAddr := s.pc }) := fun k => by
    rw [runFetched, State.fetch_ok _ (show (s.beginCycle.setK k).pc.toNat ≤ 4094 from h4)]
    rfl
  have e : step s = runCycle s := by simp only [step, advance, h1, h2]
  rw [e, runCycle, State.fetched]
  cases hp : s.nextPoll with
  | nothing => exact run none
  | key k => exact run (some k)
  | quit => exact absurd hp h3

/-- Everything a step that answers a next state can do: it quits at the start-of-cycle poll; or PC cannot be fetched from;
or the decoded instruction runs in the fetched state; or a key wait takes one more poll. -/
theorem step_next {t : State} (h : step s = .next t) :
    s.status = .running ∧
    ((s.wait = none ∧ s.nextPoll = .quit ∧ t = s.beginCycle.setStatus .cancelled) ∨
     (s.wait = none ∧ s.nextPoll ≠ .quit ∧ memSize ≤ s.pc.toNat ∧
        t = (s.beginCycle.setK (latchOf s.nextPoll)).raise .pcRange s.pc.toNat) ∨
     (s.wait = none ∧ s.nextPoll ≠ .quit ∧ s.pc.toNat = 4095 ∧
        t = (s.beginCycle.setK (latchOf s.nextPoll)).raise .fetchRange memSize) ∨
     (s.CanFetch ∧ ∃ u, exec (decodeWord s.wordAtPc) s.fetched = .next u ∧ t = u.gap) ∨
     (∃ x u, s.wait = some x ∧ exec (.getKey x) s = .next u ∧ t = u.gap)) := by
  by_cases hr : s.status = .running
  swap
  · exfalso
    cases hs : s.status <;> simp_all [step, advance]
  refine ⟨hr, ?_⟩
  cases hw : s.wait with
  | some x =>
    have e : step s = closeCycle (exec (.getKey x) s) := by simp only [step, advance, hr, hw]
    obtain ⟨u, hu, ht⟩ := closeCycle_next (e ▸ h)
    exact .inr (.inr (.inr (.inr ⟨x, u, rfl, hu, ht⟩)))
  | none =>
    have e : step s = runCycle s := by simp only [step, advance, hr, hw]
    by_cases hq : s.nextPoll = .quit
    · refine .inl ⟨rfl, hq, ?_⟩
      rw [e, runCycle, hq] at h
      cases h
      rfl
    have run : step s = runFetched (s.beginCycle.setK (latchOf s.nextPoll)) := by
      rw [e, runCycle]
      cases hp : s.nextPoll with
      | nothing => rfl
      | key k => rfl
      | quit => exact absurd hp hq
    by_cases h1 : s.pc.toNat ≤ 4094
    · have hc : s.CanFetch := ⟨hr, hw, hq, h1⟩
      rw [step_fetched s hc] at h
      exact .inr (.inr (.inr (.inl ⟨hc, closeCycle_next h⟩)))
    · rw [run, runFetched] at h
      by_cases h2 : s.pc.toNat = 4095
      · rw [State.fetch_last _ (show (s.beginCycle.setK _).pc.toNat = 4095 from h2)] at h
        cases h
        exact .inr (.inr (.inl ⟨rfl, hq, h2, rfl⟩))
      · have h3 : memSize ≤ s.pc.toNat := by simp only [memSize]; omega
        rw [State.fetch_beyond _ (show memSize ≤ (s.beginCycle.setK _).pc.toNat from h3)] at h
        cases h
        exact .inr (.inl ⟨rfl, hq, h3, rfl⟩)

end Sys2Proof.Machine
end

