-- ==== Sys2Proof/Laws/Decode.lean ====
section
/-! SUPPORT. The fields of a word built from fields, and the three masks of the decode table as arithmetic
(spec/30_encoding.md R80 to R84). -/

namespace Sys2Proof

/-! ## Fields of the three formats -/

variable (op : Nat) (x y n : Fin 16) (nn : Byte) (nnn : Addr12)

theorem formA_toNat (h : op < 16) : (formA op nnn).toNat = op * 4096 + nnn.toNat := by
  have := nnn.isLt
  simp only [formA, BitVec.toNat_ofNat]
  omega

theorem formXK_toNat (h : op < 16) : (formXK op x nn).toNat = op * 4096 + x.val * 256 + nn.toNat := by
  have := nn.isLt
  simp only [formXK, BitVec.toNat_ofNat]
  omega

theorem formXYN_toNat (h : op < 16) : (formXYN op x y n).toNat = op * 4096 + x.val * 256 + y.val * 16 + n.val := by
  simp only [formXYN, BitVec.toNat_ofNat]
  omega

theorem opOf_formA (h : op < 16) : opOf (formA op nnn) = op := by
  have := nnn.isLt
  rw [opOf, formA_toNat op nnn h]
  omega

theorem nnnOf_formA (h : op < 16) : nnnOf (formA op nnn) = nnn := by
  have := nnn.isLt
  apply BitVec.eq_of_toNat_eq
  rw [nnnOf, formA_toNat op nnn h, BitVec.toNat_ofNat]
  omega

theorem opOf_formXK (h : op < 16) : opOf (formXK op x nn) = op := by
  have := nn.isLt
  rw [opOf, formXK_toNat op x nn h]
  omega

theorem xOf_formXK (h : op < 16) : xOf (formXK op x nn) = x := by
  have := nn.isLt
  apply Fin.ext
  simp only [xOf, formXK_toNat op x nn h, Fin.val_ofNat]
  omega

theorem nnOf_formXK (h : op < 16) : nnOf (formXK op x nn) = nn := by
  have := nn.isLt
  apply BitVec.eq_of_toNat_eq
  rw [nnOf, formXK_toNat op x nn h, BitVec.toNat_ofNat]
  omega

theorem opOf_formXYN (h : op < 16) : opOf (formXYN op x y n) = op := by
  rw [opOf, formXYN_toNat op x y n h]
  omega

theorem xOf_formXYN (h : op < 16) : xOf (formXYN op x y n) = x := by
  apply Fin.ext
  simp only [xOf, formXYN_toNat op x y n h, Fin.val_ofNat]
  omega

theorem yOf_formXYN (h : op < 16) : yOf (formXYN op x y n) = y := by
  apply Fin.ext
  simp only [yOf, formXYN_toNat op x y n h, Fin.val_ofNat]
  omega

theorem nOf_formXYN (h : op < 16) : nOf (formXYN op x y n) = n := by
  apply Fin.ext
  simp only [nOf, formXYN_toNat op x y n h, Fin.val_ofNat]
  omega

/-! ## A word is what its fields make -/

theorem opOf_lt (w : Word) : opOf w < 16 := by
  have := w.isLt
  rw [opOf]
  omega

theorem formA_fields (w : Word) : formA (opOf w) (nnnOf w) = w := by
  have := w.isLt
  apply BitVec.eq_of_toNat_eq
  simp only [formA, opOf, nnnOf, BitVec.toNat_ofNat]
  omega

theorem formXK_fields (w : Word) : formXK (opOf w) (xOf w) (nnOf w) = w := by
  have := w.isLt
  apply BitVec.eq_of_toNat_eq
  simp only [formXK, opOf, xOf, nnOf, Fin.val_ofNat, BitVec.toNat_ofNat]
  omega

theorem formXYN_fields (w : Word) : formXYN (opOf w) (xOf w) (yOf w) (nOf w) = w := by
  have := w.isLt
  apply BitVec.eq_of_toNat_eq
  simp only [formXYN, opOf, xOf, yOf, nOf, Fin.val_ofNat, BitVec.toNat_ofNat]
  omega

/-! ## The masks of the table -/

/-- The mask F000 keeps the first nibble. -/
theorem mask_op (w : Word) : (w &&& 0xF000#16).toNat = opOf w * 4096 := by
  have h : w &&& 0xF000#16 = (w >>> 12) <<< 12 := by
    ext i hi
    interval_cases i <;> simp
  have := w.isLt
  rw [h, BitVec.toNat_shiftLeft, BitVec.toNat_ushiftRight, Nat.shiftRight_eq_div_pow, Nat.shiftLeft_eq, opOf]
  omega

/-- A mask made of two disjoint parts. -/
theorem mask_split (w a b : Word) (hab : a &&& b = 0#16) : w &&& (a ||| b) = (w &&& a) + (w &&& b) := by
  have h : (w &&& a) &&& (w &&& b) = 0#16 := by
    rw [BitVec.and_assoc, BitVec.and_comm a, BitVec.and_assoc, BitVec.and_comm b, hab]
    simp
  rw [BitVec.add_eq_or_of_and_eq_zero _ _ h]
  ext i hi
  simp [Bool.and_or_distrib_left]

/-- The mask F00F keeps the first and the last nibble. -/
theorem mask_op_n (w : Word) : (w &&& 0xF00F#16).toNat = opOf w * 4096 + (nOf w).val := by
  have e : (0xF00F#16 : Word) = 0xF000#16 ||| 0x000F#16 := by decide
  have low : (w &&& 0x000F#16).toNat = w.toNat % 16 := by
    rw [BitVec.toNat_and]
    exact Nat.and_two_pow_sub_one_eq_mod w.toNat 4
  have := w.isLt
  rw [e, mask_split w _ _ (by decide), BitVec.toNat_add, mask_op, low]
  simp only [nOf, opOf, Fin.val_ofNat]
  omega

/-- The mask F0FF keeps the first nibble and the low byte. -/
theorem mask_op_nn (w : Word) : (w &&& 0xF0FF#16).toNat = opOf w * 4096 + (nnOf w).toNat := by
  have e : (0xF0FF#16 : Word) = 0xF000#16 ||| 0x00FF#16 := by decide
  have low : (w &&& 0x00FF#16).toNat = w.toNat % 256 := by
    rw [BitVec.toNat_and]
    exact Nat.and_two_pow_sub_one_eq_mod w.toNat 8
  have := w.isLt
  rw [e, mask_split w _ _ (by decide), BitVec.toNat_add, mask_op, low]
  simp only [nnOf, opOf, BitVec.toNat_ofNat]
  omega

end Sys2Proof
end

