-- ==== Sys2Proof/Laws/Display.lean ====
section
/-! SUPPORT. What drawing does to the framebuffer, cell by cell (spec/44_display.md R191 to R193). -/

namespace Sys2Proof.Machine

/-- A cell read after a cell write: coordinates are taken modulo the width and height. -/
theorem FrameBuffer.cell_setCell (fb : FrameBuffer) (x y : Nat) (on : Bool) (cx cy : Nat) :
    (fb.setCell x y on).cell cx cy =
      if cx % fbWidth = x % fbWidth ∧ cy % fbHeight = y % fbHeight then on else fb.cell cx cy := by
  simp only [FrameBuffer.cell, FrameBuffer.setCell, Vector.getElem_set]
  by_cases hy : y % fbHeight = cy % fbHeight
  · by_cases hx : x % fbWidth = cx % fbWidth
    · simp [hy, hx]
    · simp [hy, hx, Ne.symm hx]
  · simp [hy, Ne.symm hy]

/-- A cell read of a cleared framebuffer. -/
@[simp] theorem FrameBuffer.cell_cleared (cx cy : Nat) : FrameBuffer.cleared.cell cx cy = false := by
  simp [FrameBuffer.cell, FrameBuffer.cleared]

/-- One plotted bit, cell by cell. -/
theorem plotBit_cell (z : Bool) (x y : Nat) (bit : Bool) (c : Canvas) (cx cy : Nat) :
    (plotBit z x y bit c).1.cell cx cy =
      if cx % fbWidth = x % fbWidth ∧ cy % fbHeight = y % fbHeight then c.1.cell cx cy ^^ bit else c.1.cell cx cy := by
  simp only [plotBit, FrameBuffer.drawPixel, FrameBuffer.cell_setCell]
  split
  · rename_i h
    simp only [FrameBuffer.cell, h.1, h.2]
  · rfl

/-- One plotted bit collides when its cell was on, under a sprite bit of 1 or as the parameter says. -/
theorem plotBit_hit (z : Bool) (x y : Nat) (bit : Bool) (c : Canvas) :
    (plotBit z x y bit c).2 = true ↔ c.2 = true ∨ (c.1.cell x y = true ∧ (bit = true ∨ z = true)) := by
  simp [plotBit, FrameBuffer.drawPixel]

/-- A row of plotted bits: the cells of its columns are combined by exclusive or, every other cell is as before, and a
collision is a lit cell among them. -/
theorem plotRowFrom_spec (z : Bool) (x0 y : Nat) (b : Byte) (left : Nat) (hl : left ≤ 8) (c : Canvas) :
    (∀ k, 8 - left ≤ k → k < 8 →
      (plotRowFrom z x0 y b left c).1.cell (x0 + k) y = (c.1.cell (x0 + k) y ^^ b.getLsbD (7 - k))) ∧
    (∀ cx cy, (∀ k, 8 - left ≤ k → k < 8 → ¬ (cx % fbWidth = (x0 + k) % fbWidth ∧ cy % fbHeight = y % fbHeight)) →
      (plotRowFrom z x0 y b left c).1.cell cx cy = c.1.cell cx cy) ∧
    ((plotRowFrom z x0 y b left c).2 = true ↔
      c.2 = true ∨ ∃ k, 8 - left ≤ k ∧ k < 8 ∧ c.1.cell (x0 + k) y = true ∧ (b.getLsbD (7 - k) = true ∨ z = true)) := by
  induction left generalizing c with
  | zero =>
    refine ⟨fun k h1 h2 => by omega, fun _ _ _ => rfl, ?_⟩
    exact ⟨.inl, fun h => h.elim id fun ⟨k, h1, h2, _⟩ => by omega⟩
  | succ left ih =>
    obtain ⟨i1, i2, i3⟩ := ih (by omega) (plotBit z (x0 + (7 - left)) y (b.getLsbD left) c)
    have other : ∀ k, 8 - left ≤ k → k < 8 →
        (plotBit z (x0 + (7 - left)) y (b.getLsbD left) c).1.cell (x0 + k) y = c.1.cell (x0 + k) y := fun k h1 h2 => by
      rw [plotBit_cell, if_neg]
      simp only [fbWidth, fbHeight]
      omega
    refine ⟨fun k h1 h2 => ?_, fun cx cy h => ?_, ?_⟩
    · rw [plotRowFrom]
      by_cases hk : 8 - left ≤ k
      · rw [i1 k hk h2, other k hk h2]
      · obtain rfl : k = 7 - left := by omega
        rw [i2 _ _ fun j h3 h4 => by simp only [fbWidth, fbHeight]; omega, plotBit_cell, if_pos ⟨rfl, rfl⟩]
        congr 2
        omega
    · rw [plotRowFrom, i2 cx cy fun k h1 h2 => h k (by omega) h2, plotBit_cell, if_neg (h (7 - left) (by omega) (by omega))]
    · rw [plotRowFrom, i3, plotBit_hit, or_assoc]
      refine or_congr_right ⟨fun h => ?_, fun ⟨k, h1, h2, h3, h4⟩ => ?_⟩
      · rcases h with ⟨h3, h4⟩ | ⟨k, h1, h2, h3, h4⟩
        · have e : 7 - (7 - left) = left := by omega
          exact ⟨7 - left, by omega, by omega, h3, by rwa [e]⟩
        · exact ⟨k, by omega, h2, by rwa [other k h1 h2] at h3, h4⟩
      · by_cases hk : 8 - left ≤ k
        · exact .inr ⟨k, hk, h2, by rwa [other k hk h2], h4⟩
        · obtain rfl : k = 7 - left := by omega
          have e : 7 - (7 - left) = left := by omega
          exact .inl ⟨h3, by rwa [e] at h4⟩

/-- Everything a sprite of at most 32 rows does to the framebuffer: each cell it covers is combined with its sprite bit by
exclusive or, every other cell is as before, and a collision is a covered cell that was on, under a sprite bit of 1 or as
the parameter says (44_display R191 to R193). -/
theorem blitSprite_spec (z : Bool) (x0 y0 : Nat) (rows : List Byte) (hlen : rows.length ≤ fbHeight) (c : Canvas) :
    (∀ r k, r < rows.length → k < 8 →
      (blitSprite z x0 y0 rows c).1.cell (x0 + k) (y0 + r) =
        (c.1.cell (x0 + k) (y0 + r) ^^ (rows.getD r 0).getLsbD (7 - k))) ∧
    (∀ cx cy, (∀ r k, r < rows.length → k < 8 →
        ¬ (cx % fbWidth = (x0 + k) % fbWidth ∧ cy % fbHeight = (y0 + r) % fbHeight)) →
      (blitSprite z x0 y0 rows c).1.cell cx cy = c.1.cell cx cy) ∧
    ((blitSprite z x0 y0 rows c).2 = true ↔
      c.2 = true ∨ ∃ r k, r < rows.length ∧ k < 8 ∧ c.1.cell (x0 + k) (y0 + r) = true ∧
        ((rows.getD r 0).getLsbD (7 - k) = true ∨ z = true)) := by
  induction rows generalizing y0 c with
  | nil =>
    refine ⟨fun r k h => absurd h (by simp), fun _ _ _ => rfl, ?_⟩
    exact ⟨.inl, fun h => h.elim id fun ⟨r, k, h1, _⟩ => absurd h1 (by simp)⟩
  | cons b bs ih =>
    have hlen' : bs.length + 1 ≤ 32 := hlen
    obtain ⟨i1, i2, i3⟩ := ih (y0 + 1) (show bs.length ≤ 32 by omega) (plotRow z x0 y0 b c)
    obtain ⟨p1, p2, p3⟩ := plotRowFrom_spec z x0 y0 b 8 le_rfl c
    have other : ∀ r k, r < bs.length → (plotRow z x0 y0 b c).1.cell (x0 + k) (y0 + 1 + r) = c.1.cell (x0 + k) (y0 + 1 + r) :=
      fun r k hr => p2 _ _ fun j _ _ => by simp only [fbWidth, fbHeight]; omega
    have shift : ∀ r, y0 + (r + 1) = y0 + 1 + r := fun r => by omega
    refine ⟨fun r k hr hk => ?_, fun cx cy h => ?_, ?_⟩
    · rw [blitSprite]
      match r with
      | 0 =>
        rw [i2 _ _ fun j m h3 h4 => by simp only [fbWidth, fbHeight]; omega]
        exact p1 k (by omega) hk
      | r + 1 =>
        have hr' : r < bs.length := by simpa using hr
        rw [shift r, i1 r k hr' hk, other r k hr', List.getD_cons_succ]
    · rw [blitSprite, i2 cx cy fun r k h1 h2 => ?_]
      · exact p2 cx cy fun k _ h2 => h 0 k (by simp) h2
      · rw [← shift r]
        exact h (r + 1) k (by simpa using h1) h2
    · rw [blitSprite, i3, plotRow, p3, or_assoc]
      refine or_congr_right ⟨fun h => ?_, fun ⟨r, k, h1, h2, h3, h4⟩ => ?_⟩
      · rcases h with ⟨k, _, h2, h3, h4⟩ | ⟨r, k, h1, h2, h3, h4⟩
        · exact ⟨0, k, by simp, h2, h3, h4⟩
        · exact ⟨r + 1, k, by simpa using h1, h2, by rw [shift r]; exact (other r k h1).symm.trans h3, h4⟩
      · match r with
        | 0 => exact .inl ⟨k, by omega, h2, h3, h4⟩
        | r + 1 =>
          have hr' : r < bs.length := by simpa using h1
          exact .inr ⟨r, k, hr', h2, (other r k hr').trans (by rwa [shift r] at h3), h4⟩

end Sys2Proof.Machine
end

