-- ==== Sys2Proof/Laws/Exec.lean ====
section
/-! SUPPORT. What the instructions with more than one outcome can do, said once each: if it answers a next state, then one of
these cases holds (spec/40_control_flow.md, 43_index_memory.md, 44_display.md, 45_keyboard_timers.md). -/

namespace Sys2Proof.Machine

variable (s : State)

/-- RETURN pops and retires, or takes StackUnderflow (40_control_flow R133). -/
theorem execReturn_next {t : State} (h : execReturn s = .next t) :
    (0 < s.sp.toNat ∧ ∃ hk : s.sp.toNat - 1 < stackDepth,
      t = ((s.setStack s.stack (s.sp - 1)).setPc s.stack[s.sp.toNat - 1]).retire) ∨
    (s.sp.toNat = 0 ∧ t = s.raise .stackUnderflow 0) := by
  by_cases h0 : s.sp.toNat = 0
  · rw [execReturn, State.pop_empty s h0] at h
    exact .inr ⟨h0, by cases h; rfl⟩
  · by_cases hk : s.sp.toNat - 1 < stackDepth
    · rw [execReturn, State.pop_ok s (by omega) hk] at h
      exact .inl ⟨by omega, hk, by cases h; rfl⟩
    · rw [execReturn, State.pop_beyond s (by omega)] at h
      cases h

/-- CALL pushes and transfers, or takes StackOverflow (40_control_flow R135). -/
theorem execCall_next {nnn : Addr12} {t : State} (h : execCall nnn s = .next t) :
    (∃ hk : s.sp.toNat < stackDepth,
      t = (s.setStack (s.stack.set s.sp.toNat s.pc hk) (s.sp + 1)).setPc (wordOfAddr nnn)) ∨
    (s.sp.toNat = stackDepth ∧ t = s.raise .stackOverflow 0) := by
  by_cases hk : s.sp.toNat < stackDepth
  · rw [execCall, State.push_ok s _ hk] at h
    exact .inl ⟨hk, by cases h; rfl⟩
  · by_cases h0 : s.sp.toNat = stackDepth
    · rw [execCall, State.push_full s _ h0] at h
      exact .inr ⟨h0, by cases h; rfl⟩
    · rw [execCall, State.push_beyond s _ (by omega)] at h
      cases h

/-- BCP and DUMP store and retire, or take DataWrite (43_index_memory R183, R184). -/
theorem storeAtIndex_next {bytes : List Byte} {t : State} (h : s.storeAtIndex bytes = .next t) :
    (∃ m, s.mem.writeSpan s.base bytes = some m ∧ t = (s.setMem m).retire) ∨
    (s.mem.writeSpan s.base bytes = none ∧ t = s.raise .dataWrite (lowestOffending s.base)) := by
  rcases State.storeAtIndex_cases s bytes with ⟨m, h1, h2⟩ | ⟨h1, h2⟩
  · rw [h2] at h
    exact .inl ⟨m, h1, by cases h; rfl⟩
  · rw [h2] at h
    exact .inr ⟨h1, by cases h; rfl⟩

/-- LOAD reads and retires, or takes DataRead (43_index_memory R185). -/
theorem execLoad_next {x : Count} {t : State} (h : execLoad x s = .next t) :
    (∃ bytes, s.mem.readSpan s.base (s.blockLength x) = some bytes ∧ t = (s.setRegs bytes).retire) ∨
    (s.mem.readSpan s.base (s.blockLength x) = none ∧ t = s.raise .dataRead (lowestOffending s.base)) := by
  unfold execLoad at h
  split at h
  · exact .inl ⟨_, by assumption, by cases h; rfl⟩
  · exact .inr ⟨by assumption, by cases h; rfl⟩

/-- What DRAW has plotted on the framebuffer of `s`, and whether it collided, for the given rows (44_display R191). -/
def State.drawn (s : State) (x y : Reg) (rows : List Byte) : Canvas :=
  blitSprite s.params.collideZeroBits (s.reg x).toNat (s.reg y).toNat rows (s.fb, false)

/-- DRAW plots and retires, or takes DataRead (44_display R191). -/
theorem execDraw_next {x y : Reg} {n : Count} {t : State} (h : execDraw x y n s = .next t) :
    (∃ rows, s.mem.readSpan s.base n.val = some rows ∧
      t = ((s.setFb (s.drawn x y rows).1).writeCollision (s.drawn x y rows).2).retire) ∨
    (s.mem.readSpan s.base n.val = none ∧ t = s.raise .dataRead (lowestOffending s.base)) := by
  unfold execDraw at h
  split at h
  · exact .inl ⟨_, by assumption, by cases h; rfl⟩
  · exact .inr ⟨by assumption, by cases h; rfl⟩

end Sys2Proof.Machine
end

