-- ==== Sys2Proof/Laws/PerInstr.lean ====
section
/-! SUPPORT. A per-instruction fact about the syntax: the word the encoder writes for a well-formed instruction has the
fixed bits of the instruction's row in the decode table (spec/30_encoding.md R84). -/

namespace Sys2Proof

/-- The fixed bits of format A. -/
theorem formA_row (op : Nat) (nnn : Addr12) (h : op < 16) :
    formA op nnn &&& 0xF000#16 = BitVec.ofNat 16 (op * 4096) := by
  apply BitVec.eq_of_toNat_eq
  rw [mask_op, opOf_formA op nnn h, BitVec.toNat_ofNat]
  omega

/-- The fixed bits of format XK. -/
theorem formXK_row (op : Nat) (x : Fin 16) (nn : Byte) (h : op < 16) :
    formXK op x nn &&& 0xF000#16 = BitVec.ofNat 16 (op * 4096) := by
  apply BitVec.eq_of_toNat_eq
  rw [mask_op, opOf_formXK op x nn h, BitVec.toNat_ofNat]
  omega

/-- The fixed bits of format XF. -/
theorem formXF_row (op : Nat) (x : Fin 16) (nn : Byte) (h : op < 16) :
    formXK op x nn &&& 0xF0FF#16 = BitVec.ofNat 16 (op * 4096 + nn.toNat) := by
  have := nn.isLt
  apply BitVec.eq_of_toNat_eq
  rw [mask_op_nn, opOf_formXK op x nn h, nnOf_formXK op x nn h, BitVec.toNat_ofNat]
  omega

/-- The fixed bits of format XYN. -/
theorem formXYN_row (op : Nat) (x y n : Fin 16) (h : op < 16) :
    formXYN op x y n &&& 0xF000#16 = BitVec.ofNat 16 (op * 4096) := by
  apply BitVec.eq_of_toNat_eq
  rw [mask_op, opOf_formXYN op x y n h, BitVec.toNat_ofNat]
  omega

/-- The fixed bits of format XY. -/
theorem formXY_row (op : Nat) (x y n : Fin 16) (h : op < 16) :
    formXYN op x y n &&& 0xF00F#16 = BitVec.ofNat 16 (op * 4096 + n.val) := by
  apply BitVec.eq_of_toNat_eq
  rw [mask_op_n, opOf_formXYN op x y n h, nOf_formXYN op x y n h, BitVec.toNat_ofNat]
  omega

/-- The encoder's word has the fixed bits of its row. -/
def Laws.RowBits.Statement (i : Instr) : Prop :=
  i.WellFormed → encode i &&& (rowOf i).mask = (rowOf i).fixed

theorem Laws.RowBits.halt : Laws.RowBits.Statement .halt := fun _ => by decide
theorem Laws.RowBits.clear : Laws.RowBits.Statement .clear := fun _ => by decide
theorem Laws.RowBits.ret : Laws.RowBits.Statement .ret := fun _ => by decide
theorem Laws.RowBits.routine (nnn : Addr12) : Laws.RowBits.Statement (.routine nnn) := fun _ => formA_row 0 nnn (by decide)
theorem Laws.RowBits.goto (nnn : Addr12) : Laws.RowBits.Statement (.goto nnn) := fun _ => formA_row 1 nnn (by decide)
theorem Laws.RowBits.call (nnn : Addr12) : Laws.RowBits.Statement (.call nnn) := fun _ => formA_row 2 nnn (by decide)
theorem Laws.RowBits.eqConst (x : Reg) (nn : Byte) : Laws.RowBits.Statement (.eqConst x nn) := fun _ => formXK_row 3 x nn (by decide)
theorem Laws.RowBits.neqConst (x : Reg) (nn : Byte) : Laws.RowBits.Statement (.neqConst x nn) := fun _ => formXK_row 4 x nn (by decide)
theorem Laws.RowBits.eqReg (x y : Reg) : Laws.RowBits.Statement (.eqReg x y) := fun _ => formXY_row 5 x y 0 (by decide)
theorem Laws.RowBits.setConst (x : Reg) (nn : Byte) : Laws.RowBits.Statement (.setConst x nn) := fun _ => formXK_row 6 x nn (by decide)
theorem Laws.RowBits.addConst (x : Reg) (nn : Byte) : Laws.RowBits.Statement (.addConst x nn) := fun _ => formXK_row 7 x nn (by decide)
theorem Laws.RowBits.setReg (x y : Reg) : Laws.RowBits.Statement (.setReg x y) := fun _ => formXY_row 8 x y 0 (by decide)
theorem Laws.RowBits.orReg (x y : Reg) : Laws.RowBits.Statement (.orReg x y) := fun _ => formXY_row 8 x y 1 (by decide)
theorem Laws.RowBits.andReg (x y : Reg) : Laws.RowBits.Statement (.andReg x y) := fun _ => formXY_row 8 x y 2 (by decide)
theorem Laws.RowBits.xorReg (x y : Reg) : Laws.RowBits.Statement (.xorReg x y) := fun _ => formXY_row 8 x y 3 (by decide)
theorem Laws.RowBits.addReg (x y : Reg) : Laws.RowBits.Statement (.addReg x y) := fun _ => formXY_row 8 x y 4 (by decide)
theorem Laws.RowBits.subReg (x y : Reg) : Laws.RowBits.Statement (.subReg x y) := fun _ => formXY_row 8 x y 5 (by decide)
theorem Laws.RowBits.bshiftRght (x y : Reg) : Laws.RowBits.Statement (.bshiftRght x y) := fun _ => formXY_row 8 x y 6 (by decide)
theorem Laws.RowBits.subtract (x y : Reg) : Laws.RowBits.Statement (.subtract x y) := fun _ => formXY_row 8 x y 7 (by decide)
theorem Laws.RowBits.bshiftLeft (x y : Reg) : Laws.RowBits.Statement (.bshiftLeft x y) := fun _ => formXY_row 8 x y 0xE (by decide)
theorem Laws.RowBits.neqReg (x y : Reg) : Laws.RowBits.Statement (.neqReg x y) := fun _ => formXY_row 9 x y 0 (by decide)
theorem Laws.RowBits.seti (nnn : Addr12) : Laws.RowBits.Statement (.seti nnn) := fun _ => formA_row 0xA nnn (by decide)
theorem Laws.RowBits.jump (nnn : Addr12) : Laws.RowBits.Statement (.jump nnn) := fun _ => formA_row 0xB nnn (by decide)
theorem Laws.RowBits.rand (x : Reg) (nn : Byte) : Laws.RowBits.Statement (.rand x nn) := fun _ => formXK_row 0xC x nn (by decide)
theorem Laws.RowBits.draw (x y : Reg) (n : Count) : Laws.RowBits.Statement (.draw x y n) := fun _ => formXYN_row 0xD x y n (by decide)
theorem Laws.RowBits.keyP (x : Reg) : Laws.RowBits.Statement (.keyP x) := fun _ => formXF_row 0xE x 0x9E (by decide)
theorem Laws.RowBits.keyNp (x : Reg) : Laws.RowBits.Statement (.keyNp x) := fun _ => formXF_row 0xE x 0xA1 (by decide)
theorem Laws.RowBits.getDelay (x : Reg) : Laws.RowBits.Statement (.getDelay x) := fun _ => formXF_row 0xF x 0x07 (by decide)
theorem Laws.RowBits.getKey (x : Reg) : Laws.RowBits.Statement (.getKey x) := fun _ => formXF_row 0xF x 0x0A (by decide)
theorem Laws.RowBits.setDelay (x : Reg) : Laws.RowBits.Statement (.setDelay x) := fun _ => formXF_row 0xF x 0x15 (by decide)
theorem Laws.RowBits.setSound (x : Reg) : Laws.RowBits.Statement (.setSound x) := fun _ => formXF_row 0xF x 0x18 (by decide)
theorem Laws.RowBits.addi (x : Reg) : Laws.RowBits.Statement (.addi x) := fun _ => formXF_row 0xF x 0x1E (by decide)
theorem Laws.RowBits.spri (x : Reg) : Laws.RowBits.Statement (.spri x) := fun _ => formXF_row 0xF x 0x29 (by decide)
theorem Laws.RowBits.bcp (x : Reg) : Laws.RowBits.Statement (.bcp x) := fun _ => formXF_row 0xF x 0x33 (by decide)
theorem Laws.RowBits.dump (x : Count) : Laws.RowBits.Statement (.dump x) := fun _ => formXF_row 0xF x 0x55 (by decide)
theorem Laws.RowBits.load (x : Count) : Laws.RowBits.Statement (.load x) := fun _ => formXF_row 0xF x 0x65 (by decide)
theorem Laws.RowBits.noneInstr : Laws.RowBits.Statement .noneInstr := fun _ => by decide

end Sys2Proof
end

