-- ==== Sys2Proof/Tests/Slice0.lean ====
section
/-! SUPPORT. Tests of the model on fixed values. The expected values are those of spec/95_test_vectors.md (the vector is
named in each comment), 30_encoding R84 and R90, and hand calculation from the rules named; then a witness for the
hypotheses of every statement. -/

namespace Sys2Proof.Tests

open Sys2Proof Sys2Proof.Machine

/-! ## Well-formedness (30_encoding R90): the one check has three words it refuses -/

theorem test_illformed_routine_000 : ¬ (Instr.routine 0x000).WellFormed := by decide
theorem test_illformed_routine_0E0 : ¬ (Instr.routine 0x0E0).WellFormed := by decide
theorem test_illformed_routine_0EE : ¬ (Instr.routine 0x0EE).WellFormed := by decide
theorem test_wellformed_routine_0E1 : (Instr.routine 0x0E1).WellFormed := by decide

/-! ## Decoding: one word per constructor, written out from the pattern of its row (30_encoding R84, R90) -/

theorem test_decode_halt : decodeBytes [0x00, 0x00] = .ok (.halt, []) := by decide
theorem test_decode_clear : decodeBytes [0x00, 0xE0] = .ok (.clear, []) := by decide
theorem test_decode_ret : decodeBytes [0x00, 0xEE] = .ok (.ret, []) := by decide
theorem test_decode_routine : decodeBytes [0x0F, 0xFF] = .ok (.routine 0xFFF, []) := by decide
theorem test_decode_goto : decodeBytes [0x12, 0x34] = .ok (.goto 0x234, []) := by decide
theorem test_decode_call : decodeBytes [0x23, 0x45] = .ok (.call 0x345, []) := by decide
theorem test_decode_eqConst : decodeBytes [0x3A, 0x12] = .ok (.eqConst 10 0x12, []) := by decide
theorem test_decode_neqConst : decodeBytes [0x4A, 0x12] = .ok (.neqConst 10 0x12, []) := by decide
theorem test_decode_eqReg : decodeBytes [0x51, 0x20] = .ok (.eqReg 1 2, []) := by decide
theorem test_decode_setConst : decodeBytes [0x6A, 0x12] = .ok (.setConst 10 0x12, []) := by decide
theorem test_decode_addConst : decodeBytes [0x71, 0xFF] = .ok (.addConst 1 0xFF, []) := by decide
theorem test_decode_setReg : decodeBytes [0x81, 0x20] = .ok (.setReg 1 2, []) := by decide
theorem test_decode_orReg : decodeBytes [0x81, 0x21] = .ok (.orReg 1 2, []) := by decide
theorem test_decode_andReg : decodeBytes [0x81, 0x22] = .ok (.andReg 1 2, []) := by decide
theorem test_decode_xorReg : decodeBytes [0x81, 0x23] = .ok (.xorReg 1 2, []) := by decide
theorem test_decode_addReg : decodeBytes [0x81, 0x24] = .ok (.addReg 1 2, []) := by decide
theorem test_decode_subReg : decodeBytes [0x81, 0x25] = .ok (.subReg 1 2, []) := by decide
theorem test_decode_bshiftRght : decodeBytes [0x8E, 0xF6] = .ok (.bshiftRght 14 15, []) := by decide
theorem test_decode_subtract : decodeBytes [0x81, 0x27] = .ok (.subtract 1 2, []) := by decide
theorem test_decode_bshiftLeft : decodeBytes [0x81, 0x2E] = .ok (.bshiftLeft 1 2, []) := by decide
theorem test_decode_neqReg : decodeBytes [0x91, 0x20] = .ok (.neqReg 1 2, []) := by decide
theorem test_decode_seti : decodeBytes [0xAF, 0xFE] = .ok (.seti 0xFFE, []) := by decide
theorem test_decode_jump : decodeBytes [0xBF, 0xFF] = .ok (.jump 0xFFF, []) := by decide
theorem test_decode_rand : decodeBytes [0xC3, 0x0F] = .ok (.rand 3 0x0F, []) := by decide
theorem test_decode_draw : decodeBytes [0xD0, 0x15] = .ok (.draw 0 1 5, []) := by decide
theorem test_decode_keyP : decodeBytes [0xE2, 0x9E] = .ok (.keyP 2, []) := by decide
theorem test_decode_keyNp : decodeBytes [0xE2, 0xA1] = .ok (.keyNp 2, []) := by decide
theorem test_decode_getDelay : decodeBytes [0xF4, 0x07] = .ok (.getDelay 4, []) := by decide
theorem test_decode_getKey : decodeBytes [0xF3, 0x0A] = .ok (.getKey 3, []) := by decide
theorem test_decode_setDelay : decodeBytes [0xF4, 0x15] = .ok (.setDelay 4, []) := by decide
theorem test_decode_setSound : decodeBytes [0xF4, 0x18] = .ok (.setSound 4, []) := by decide
theorem test_decode_addi : decodeBytes [0xF1, 0x1E] = .ok (.addi 1, []) := by decide
theorem test_decode_spri : decodeBytes [0xF9, 0x29] = .ok (.spri 9, []) := by decide
theorem test_decode_bcp : decodeBytes [0xF1, 0x33] = .ok (.bcp 1, []) := by decide
theorem test_decode_dump : decodeBytes [0xF2, 0x55] = .ok (.dump 2, []) := by decide
theorem test_decode_load : decodeBytes [0xF2, 0x65, 0x00] = .ok (.load 2, [0x00]) := by decide

/-- V-D2: words of the five sets of NONE (30_encoding R86). -/
theorem test_decode_none : (decodeWord 0x5AB1, decodeWord 0x9AB1, decodeWord 0x8AB8, decodeWord 0x8ABF, decodeWord 0xE09F,
    decodeWord 0xF066) = (.noneInstr, .noneInstr, .noneInstr, .noneInstr, .noneInstr, .noneInstr) := by decide

/-- One byte is no instruction. -/
theorem test_decode_truncated : decodeBytes [0x12] = .error (.truncated 1) := by decide

/-- The host's numbering: bits 15 to 8 of a row are the first byte in memory. -/
theorem test_decodeTableWord : decodeTableWord 16 0x6A12 = some (.setConst 10 0x12) := by decide

/-! ## One step on a small state -/

/-- The start state of 95_test_vectors but for the font, which no vector used here reads, no tick in the gap, with some registers set. -/
def start (regs : List (Reg × Byte)) : State :=
  regs.foldl (fun s p => s.setReg p.1 p.2) { State.reset with ticks := ⟨[false], 0⟩ }

/-- The state after one step on a word, when there is one. -/
def after (s : State) (w : Nat) : Option State :=
  match step (s.withFetchWord 16 w) with
  | .next t => some t
  | _ => none

/-- `s` with bytes stored from an address on. -/
def store (s : State) (a : Nat) (bytes : List Byte) : State := s.setMem (s.mem.fill a bytes)

/-- What a faulted state shows: STATUS, the code of FAULT_CAUSE, FAULT_ADDR and PC. -/
def faultOf (t : State) : Status × Nat × Nat × Word := (t.status, causeCode t.faultCause, t.faultAddr, t.pc)

/-- VA1. -/
theorem test_halt : (after (start []) 0x0000).map (fun t => (t.pc, t.status)) = some (0x202, .halted) := by decide
/-- VA2. -/
theorem test_routine : (after (start []) 0x0123).map (fun t => (t.pc, t.status)) = some (0x202, .running) := by decide
/-- VA3. -/
theorem test_none : (after (start []) 0x8AB8).map (fun t => (t.pc, t.status)) = some (0x202, .running) := by decide
/-- VA4, and the fetch latches IR and IR_ADDR. -/
theorem test_goto : (after (start []) 0x1ABC).map (fun t => (t.pc, t.ir, t.irAddr)) = some (0xABC, 0x1ABC, 0x200) := by decide
/-- VA8. -/
theorem test_call_last : (after { start [] with sp := 11 } 0x2345).map (fun t => (t.stack[11], t.sp, t.pc)) =
    some (0x200, 12, 0x345) := by decide
/-- VA9. -/
theorem test_call_overflow : (after { start [] with sp := 12 } 0x2345).map (fun t => (faultOf t, t.sp)) =
    some ((.faulted, 5, 0, 0x200), 12) := by decide
/-- VA10. -/
theorem test_return : (after { start [] with sp := 1, stack := State.reset.stack.set 0 0x300 } 0x00EE).map
    (fun t => (t.sp, t.pc, t.stack[0])) = some (0, 0x302, 0x300) := by decide
/-- VA12. -/
theorem test_return_underflow : (after (start []) 0x00EE).map (fun t => (faultOf t, t.sp)) =
    some ((.faulted, 6, 0, 0x200), 0) := by decide
/-- VA14. -/
theorem test_jump_unmasked : (after (start [(0, 0xFF)]) 0xBFFF).map (fun t => t.pc) = some 0x10FE := by decide
/-- VA15: the last word of memory runs, and leaves PC at 4096. -/
theorem test_fetch_at_4094 : (after { start [] with pc := 4094 } 0x6001).map (fun t => (t.reg 0, t.pc)) = some (1, 0x1000) := by
  decide
/-- VA16. -/
theorem test_fetch_at_4095 : (after { start [] with pc := 4095 } 0x6001).map (fun t => (faultOf t, t.irAddr)) =
    some ((.faulted, 2, 4096, 4095), 0) := by decide
/-- VA17. -/
theorem test_fetch_at_4096 : (after { start [] with pc := 4096 } 0x6001).map (fun t => (faultOf t, t.irAddr)) =
    some ((.faulted, 1, 4096, 4096), 0) := by decide

/-- VB1. -/
theorem test_eq_holds : (after (start [(10, 0x12)]) 0x3A12).map (fun t => t.pc) = some 0x204 := by decide
/-- VB2. -/
theorem test_eq_fails : (after (start [(10, 0x13)]) 0x3A12).map (fun t => t.pc) = some 0x202 := by decide
/-- VB3. -/
theorem test_neq_holds : (after (start [(10, 0x13)]) 0x4A12).map (fun t => t.pc) = some 0x204 := by decide
/-- VB4. -/
theorem test_neq_fails : (after (start [(10, 0x12)]) 0x4A12).map (fun t => t.pc) = some 0x202 := by decide
/-- VB5. -/
theorem test_eqReg_holds : (after (start [(1, 7), (2, 7)]) 0x5120).map (fun t => t.pc) = some 0x204 := by decide
/-- VB6. -/
theorem test_eqReg_fails : (after (start [(1, 7), (2, 8)]) 0x5120).map (fun t => t.pc) = some 0x202 := by decide
/-- VB8. -/
theorem test_neqReg_holds : (after (start [(1, 7), (2, 8)]) 0x9120).map (fun t => t.pc) = some 0x204 := by decide
/-- VB9. -/
theorem test_neqReg_fails : (after (start [(1, 7), (2, 7)]) 0x9120).map (fun t => t.pc) = some 0x202 := by decide

/-- VC1. -/
theorem test_setConst : (after (start []) 0x6A12).map (fun t => (t.reg 10, t.pc)) = some (0x12, 0x202) := by decide
/-- VC3. -/
theorem test_addConst_wraps : (after (start [(0, 250), (15, 9)]) 0x700A).map (fun t => (t.reg 0, t.reg 15)) = some (4, 9) := by
  decide
/-- VC6. -/
theorem test_setReg : (after (start [(1, 1), (2, 0xAB)]) 0x8120).map (fun t => (t.reg 1, t.reg 2)) = some (0xAB, 0xAB) := by
  decide
/-- VC7. -/
theorem test_or : (after (start [(1, 0xF0), (2, 0x0F), (15, 7)]) 0x8121).map (fun t => (t.reg 1, t.reg 15)) = some (0xFF, 7) := by
  decide
/-- VC8. -/
theorem test_and : (after (start [(1, 0xF0), (2, 0x3C), (15, 7)]) 0x8122).map (fun t => (t.reg 1, t.reg 15)) = some (0x30, 7) := by
  decide
/-- VC9. -/
theorem test_xor : (after (start [(1, 0xF0), (2, 0x3C), (15, 7)]) 0x8123).map (fun t => (t.reg 1, t.reg 15)) = some (0xCC, 7) := by
  decide

/-- The other setting of ARITH_VF_POLICY that the vectors give. -/
def carrying (s : State) : State := { s with params := { s.params with arithVf := .carryBorrow } }

/-- VC10. -/
theorem test_addReg : (after (start [(1, 200), (2, 100), (15, 7)]) 0x8124).map (fun t => (t.reg 1, t.reg 15)) = some (0x2C, 7) := by
  decide
/-- VC13 with carry_borrow: the flag is written last. -/
theorem test_addReg_carry : (after (carrying (start [(15, 200), (1, 100)])) 0x8F14).map (fun t => t.reg 15) = some 1 := by decide
/-- VC14. -/
theorem test_subReg : (after (start [(1, 5), (2, 10), (15, 7)]) 0x8125).map (fun t => (t.reg 1, t.reg 15)) = some (0xFB, 7) := by
  decide
/-- VC15 with carry_borrow. -/
theorem test_subReg_equal : (after (carrying (start [(1, 5), (2, 5)])) 0x8125).map (fun t => (t.reg 1, t.reg 15)) = some (0, 1) := by
  decide
/-- VC16. -/
theorem test_subtract : (after (start [(1, 5), (2, 10), (15, 7)]) 0x8127).map (fun t => (t.reg 1, t.reg 15)) = some (5, 7) := by
  decide
/-- VC17 with carry_borrow. -/
theorem test_subtract_borrow : (after (carrying (start [(1, 10), (2, 5)])) 0x8127).map (fun t => (t.reg 1, t.reg 15)) =
    some (0xFB, 0) := by decide
/-- VC19. -/
theorem test_shiftRight : (after (start [(1, 0x81), (2, 0xFF)]) 0x8126).map (fun t => (t.reg 1, t.reg 2, t.reg 15)) =
    some (0x40, 0xFF, 1) := by decide
/-- VC22. -/
theorem test_shiftRight_vf : (after (start [(15, 0xFF)]) 0x8F06).map (fun t => t.reg 15) = some 0 := by decide
/-- VC24. -/
theorem test_shiftLeft : (after (start [(1, 0x80), (15, 1)]) 0x812E).map (fun t => (t.reg 1, t.reg 15)) = some (0, 0) := by decide
/-- VC26. -/
theorem test_shiftLeft_vf : (after (start [(15, 0xFF)]) 0x8F0E).map (fun t => t.reg 15) = some 2 := by decide
/-- VC27. -/
theorem test_rand : (after { start [] with draws := ⟨[0xA7], 0⟩ } 0xC30F).map (fun t => t.reg 3) = some 0x07 := by decide
/-- VC28: a zero mask gives zero whatever the byte drawn. -/
theorem test_rand_zero : (after { start [(3, 9)] with draws := ⟨[0xFF], 0⟩ } 0xC300).map (fun t => t.reg 3) = some 0 := by decide

/-- VE1. -/
theorem test_seti : (after (start []) 0xAFFF).map (fun t => t.i) = some 0x0FFF := by decide
/-- VE2. -/
theorem test_addi : (after { start [(1, 1)] with i := 0x0FFF } 0xF11E).map (fun t => (t.i, t.status)) = some (0x1000, .running) := by
  decide
/-- VE3. -/
theorem test_addi_wraps : (after { start [(1, 2)] with i := 0xFFFF } 0xF11E).map (fun t => t.i) = some 0x0001 := by decide
/-- VE5. -/
theorem test_spri : (after (start [(0, 0x0A)]) 0xF029).map (fun t => t.i) = some 0x32 := by decide
/-- VE6: the value is not masked to a digit. -/
theorem test_spri_255 : (after (start [(0, 255)]) 0xF029).map (fun t => t.i) = some 0x4FB := by decide
/-- VE9. -/
theorem test_bcp_top : (after { start [(0, 123)] with i := 4093 } 0xF033).map
    (fun t => (t.mem.byteAt 4093, t.mem.byteAt 4094, t.mem.byteAt 4095)) = some (1, 2, 3) := by decide
/-- VE10. -/
theorem test_bcp_fault : (after { start [(0, 123)] with i := 4094 } 0xF033).map
    (fun t => (faultOf t, t.mem.byteAt 4094, t.mem.byteAt 4095)) = some ((.faulted, 4, 4096, 0x200), 0, 0) := by decide
/-- VE12. -/
theorem test_dump : (after { start [(0, 0x11), (1, 0x22), (2, 0x33), (3, 0x44)] with i := 0x300 } 0xF255).map
    (fun t => (t.mem.byteAt 0x300, t.mem.byteAt 0x301, t.mem.byteAt 0x302, t.mem.byteAt 0x303, t.i)) =
    some (0x11, 0x22, 0x33, 0, 0x300) := by decide
/-- VE16, its second half. -/
theorem test_dump_fault : (after { start [(0, 0x77)] with i := 4096 } 0xF055).map faultOf =
    some (.faulted, 4, 4096, 0x200) := by decide
/-- VE17. -/
theorem test_load : (after { store (start [(3, 0x99)]) 0x300 [1, 2, 3, 4] with i := 0x300 } 0xF265).map
    (fun t => (t.reg 0, t.reg 1, t.reg 2, t.reg 3, t.i)) = some (1, 2, 3, 0x99, 0x300) := by decide
/-- VE19, its second half: no register is written. -/
theorem test_load_fault : (after { store (start [(0, 7)]) 4095 [0x55] with i := 4095 } 0xF165).map
    (fun t => (faultOf t, t.reg 0)) = some ((.faulted, 3, 4096, 0x200), 7) := by decide

/-- `s` with some cells on. -/
def lit (s : State) (cells : List (Nat × Nat)) : State :=
  s.setFb (cells.foldl (fun fb p => fb.setCell p.1 p.2 true) s.fb)

/-- VG1. -/
theorem test_clear : (after (lit (start [(15, 1)]) [(0, 0), (5, 5), (63, 31)]) 0x00E0).map
    (fun t => (t.fb.cell 0 0, t.fb.cell 5 5, t.fb.cell 63 31, t.reg 15)) = some (false, false, false, 1) := by decide
/-- VG2: wrap on the column axis, VF not written. -/
theorem test_draw_wraps : (after { store (start [(0, 62), (1, 0), (15, 7)]) 0x300 [0xF0] with i := 0x300 } 0xD011).map
    (fun t => (t.fb.cell 62 0, t.fb.cell 63 0, t.fb.cell 0 0, t.fb.cell 1 0, t.fb.cell 2 0, t.reg 15)) =
    some (true, true, true, true, false, 7) := by decide
/-- VG12: VF is the column, and the collision is written after the coordinates were latched. -/
theorem test_draw_collides : (after { lit (store (start [(15, 5), (1, 2)]) 0x300 [0x80]) [(5, 2)] with i := 0x300 } 0xDF11).map
    (fun t => (t.fb.cell 5 2, t.reg 15)) = some (false, 1) := by decide

/-- One cycle on a word whose start-of-cycle poll delivers the given events. -/
def cycleWith (s : State) (w : Nat) (events : List HostEvent) (later : List (List HostEvent)) : Option State :=
  match step { s.withFetchWord 16 w with polls := ⟨events :: later, 0⟩ } with
  | .next t => some t
  | _ => none

/-- VK1. -/
theorem test_keyP_pressed : (cycleWith (start [(2, 5)]) 0xE29E [.keyDown (.digit 5)] []).map (fun t => (t.k, t.pc)) =
    some (some 5, 0x204) := by decide
/-- VK5: the full byte is compared. -/
theorem test_keyP_full_byte : (cycleWith (start [(2, 0x15)]) 0xE29E [.keyDown (.digit 5)] []).map (fun t => t.pc) =
    some 0x202 := by decide
/-- VK6, first and third case. -/
theorem test_keyNp_pressed : (cycleWith (start [(2, 5)]) 0xE2A1 [.keyDown (.digit 5)] []).map (fun t => t.pc) = some 0x202 := by
  decide
theorem test_keyNp_none : (cycleWith (start [(2, 5)]) 0xE2A1 [] []).map (fun t => t.pc) = some 0x204 := by decide
/-- VK8, with the key in the wait's first poll: the latched key is ignored (letter A is code 10, 36 R121). -/
theorem test_getKey : (cycleWith (start []) 0xF30A [.keyDown (.digit 4)] [[.keyDown (.letter 0)]]).map
    (fun t => (t.k, t.reg 3, t.pc, t.wait)) = some (some 4, 0x0A, 0x202, none) := by decide
/-- VK7, its first poll: the wait begins and PC stays. -/
theorem test_getKey_holds : (cycleWith (start []) 0xF30A [] [[]]).map (fun t => (t.reg 3, t.pc, t.wait)) =
    some (0, 0x200, some 3) := by decide
/-- VK10. -/
theorem test_quit : (cycleWith (start []) 0x6A12 [.quit] []).map (fun t => (t.status, t.k, t.pc, t.ir)) =
    some (.cancelled, none, 0x200, 0) := by decide
/-- VK11. -/
theorem test_getDelay : (after { start [] with dt := 0x3C } 0xF407).map (fun t => (t.reg 4, t.dt)) = some (0x3C, 0x3C) := by decide
/-- VK12, with one tick in the gap. -/
theorem test_setDelay : (after { start [(4, 60)] with ticks := ⟨[true], 0⟩ } 0xF415).map (fun t => (t.dt, t.st)) =
    some (59, 0) := by decide
/-- VK14. -/
theorem test_setDelay_zero : (after { start [(4, 0)] with dt := 9 } 0xF415).map (fun t => t.dt) = some 0 := by decide
/-- VK13. -/
theorem test_setSound : (after (start [(4, 2)]) 0xF418).map (fun t => (t.st, t.dt)) = some (2, 0) := by decide
/-- 70_reset_and_hazards R240: memory is zero at reset, before the font is loaded. -/
theorem test_reset_memory : (State.reset.mem.byteAt 0, State.reset.mem.byteAt 79, State.reset.mem.byteAt 512) = (0, 0, 0) := by
  decide
/-- VE18 and 20_memory R58: the first and the last byte of the default font after boot. -/
theorem test_font : (let m := (State.boot defaultFont []).mem; (m.byteAt 0, m.byteAt 79, m.byteAt 80)) = (0xF0, 0x80, 0) := by
  decide
/-- S13: the image is at 512. -/
theorem test_boot : (State.boot (Vector.replicate 80 0) [0x00, 0xE0, 0x12, 0x00]).mem.byteAt 514 = 0x12 := by decide

/-! ## Witnesses: a concrete state and operands that meet the hypotheses of each statement, with one for each clause at the
boundary of its range -/

/-- `start []` with a word placed at PC. -/
def placed (w : Nat) : State := (start []).withFetchWord 16 w

/-- The state an instruction leaves, when it leaves one. -/
def ran (i : Instr) (s : State) : State :=
  match exec i s with
  | .next t => t
  | _ => s

/-- The state a step leaves, when it leaves one. -/
def stepped (s : State) : State :=
  match step s with
  | .next t => t
  | _ => s

/-- A state whose next poll points deliver the given events. -/
def polled (s : State) (events : List (List HostEvent)) : State := { s with polls := ⟨events, 0⟩ }

theorem placed_coreInv (w : Nat) : (placed w).CoreInv :=
  ⟨by show (0 : Nat) ≤ 12; decide, by show (512 : Nat) ≤ 0x10FE; decide, fun _ _ h => absurd h (Nat.not_lt_zero _),
    fun _ h => nomatch h⟩

theorem witness_DecodeOfEncodeIsIdentity : (Instr.routine 0x0E1).WellFormed ∧ (Instr.load 15).WellFormed := by decide
theorem witness_EncodeOfDecodeIsIdentity : decodeWord 0xF065 ≠ .noneInstr := by decide
/-- One word in each of the five sets, and one of ROUTINE. -/
theorem witness_NoneAndRoutineWordsAreTheirSets :
    (opOf 0x5AB1 = 0x5 ∧ (nOf 0x5AB1).val ≠ 0) ∧ (opOf 0x8ABF = 0x8 ∧ (nOf 0x8ABF).val = 0xF) ∧
    (opOf 0x9AB1 = 0x9 ∧ (nOf 0x9AB1).val ≠ 0) ∧ (opOf 0xE0A0 = 0xE ∧ (nnOf 0xE0A0).toNat = 0xA0) ∧
    (opOf 0xF066 = 0xF ∧ (nnOf 0xF066).toNat = 0x66) ∧ opOf 0x00E1 = 0 ∧ nnnOf 0x00E1 = 0x0E1 := by decide
theorem witness_FetchReadsTwoBytesHighOrderFirst : ({ start [] with pc := 4094 } : State).pc.toNat ≤ 4094 ∧
    ({ start [] with pc := 4095 } : State).pc.toNat = 4095 ∧ 4096 ≤ ({ start [] with pc := 4096 } : State).pc.toNat := by decide
theorem witness_StepRunsTheDecodedInstruction : (placed 0x6A12).CanFetch ∧
    decodeBytes [(placed 0x6A12).mem.byteAt 512, (placed 0x6A12).mem.byteAt 513] = .ok (.setConst 10 0x12, []) :=
  ⟨⟨rfl, rfl, by decide, by decide⟩, by decide⟩
theorem witness_UnfetchablePcFaults : let s := { placed 0 with pc := 4096 }; let r := { placed 0 with pc := 4095 }
    (s.status = .running ∧ s.wait = none ∧ s.nextPoll ≠ .quit ∧ 4096 ≤ s.pc.toNat) ∧
    (r.status = .running ∧ r.wait = none ∧ r.nextPoll ≠ .quit ∧ r.pc.toNat = 4095) := by decide
theorem witness_QuitCancelsTheRun : let s := polled (start []) [[.keyDown (.digit 1), .quit]]
    s.status = .running ∧ s.nextPoll = .quit ∧ s.wait = none ∧ { s with wait := some 3 }.wait ≠ none := by decide
theorem witness_NoStepAfterTheRunEnds : ((start []).setStatus .halted).status ≠ .running ∧
    ((start []).setStatus .faulted).status ≠ .running ∧ ((start []).setStatus .cancelled).status ≠ .running := by decide
theorem witness_KeyWaitStepsArePolls : let s := { polled (start []) [[]] with wait := some 3 }
    s.status = .running ∧ s.wait = some 3 ∧ s.nextPoll = .nothing ∧
    (polled s [[.keyDown (.letter 5)]]).nextPoll = .key 15 := by decide
theorem witness_GapTicksAtMostOnce : (start []).status = .running ∧ (start []).wait = none ∧
    ((start []).setStatus .halted).status ≠ .running ∧ ((start []).setWait (some 0)).wait ≠ none := by decide
theorem witness_WithFetchWordRunsThatWord : State.reset.mem.wf ∧ State.reset.status = .running ∧ State.reset.wait = none ∧
    ({ State.reset with pc := 4094 } : State).pc.toNat ≤ 4094 ∧ 65535 < 65536 := by decide
/-- A step that makes a stack entry live. -/
theorem witness_StepKeepsTheCoreInvariant : (placed 0x2345).CoreInv ∧ step (placed 0x2345) = .next (stepped (placed 0x2345)) :=
  ⟨placed_coreInv _, rfl⟩
theorem witness_StepKeepsMemoryCanonical : (placed 0xF033).mem.wf ∧ step (placed 0xF033) = .next (stepped (placed 0xF033)) :=
  ⟨by decide, rfl⟩
theorem witness_StepKeepsLatchesInAgreement : (placed 0x00EE).LatchesAgree ∧
    step (placed 0x00EE) = .next (stepped (placed 0x00EE)) := ⟨⟨by decide, rfl⟩, rfl⟩
theorem witness_RunningCoreAlwaysSteps : ({ start [] with sp := 12 } : State).SpBounded ∧
    ({ start [] with sp := 12 } : State).status = .running := by decide
theorem witness_CanonicalMemoriesThatReadAlikeAreEqual : Memory.wf [(0x300, 5), (4095, 1)] ∧ Memory.wf (Memory.put [(4095, 1)] 0x300 5) ∧
    ∀ a, Memory.byteAt [(0x300, 5), (4095, 1)] a = Memory.byteAt (Memory.put [(4095, 1)] 0x300 5) a :=
  ⟨by decide, by decide, fun _ => rfl⟩

theorem witness_RegistersWrittenAreTheTables : exec (.draw 1 2 1) (start []) = .next (ran (.draw 1 2 1) (start [])) ∧
    ¬ mayWrite (start []).params (.draw 1 2 1) 1 := ⟨rfl, by show ¬ (1 : Reg) = 15; decide⟩
theorem witness_OnlyCallAndReturnReachTheStack : exec (.jump 5) (start []) = .next (ran (.jump 5) (start [])) ∧
    (∀ nnn, Instr.jump 5 ≠ .call nnn) ∧ Instr.jump 5 ≠ .ret := ⟨rfl, by simp, by simp⟩
theorem witness_FramebufferAndMemoryHaveTheirWriters : exec (.load 2) (start []) = .next (ran (.load 2) (start [])) ∧
    Instr.load 2 ≠ .clear ∧ (∀ x y n, Instr.load 2 ≠ .draw x y n) ∧ (∀ x, Instr.load 2 ≠ .bcp x) ∧
    (∀ x, Instr.load 2 ≠ .dump x) := ⟨rfl, by simp, by simp, by simp, by simp⟩
theorem witness_DelayTimerOnlyCountsDown : step (placed 0xF407) = .next (stepped (placed 0xF407)) ∧
    ∀ x, decodeWord (placed 0xF407).wordAtPc ≠ .setDelay x := ⟨rfl, fun x => by
  rw [show decodeWord (placed 0xF407).wordAtPc = .getDelay 4 by decide]; simp⟩
theorem witness_SpecialRegistersAreWrittenByTheirInstructions : exec (.bcp 1) (start []) = .next (ran (.bcp 1) (start [])) ∧
    (∀ nnn, Instr.bcp 1 ≠ .seti nnn) ∧ (∀ x, Instr.bcp 1 ≠ .addi x) ∧ (∀ x, Instr.bcp 1 ≠ .spri x) ∧
    (∀ x, Instr.bcp 1 ≠ .setDelay x) ∧ (∀ x, Instr.bcp 1 ≠ .setSound x) := ⟨rfl, by simp, by simp, by simp, by simp, by simp⟩
/-- The states in which each of the six instructions that can fault does. -/
def faultCases : List (Instr × State) :=
  [(.call 0x345, { start [] with sp := 12 }), (.ret, start []), (.bcp 1, { start [] with i := 4094 }),
    (.dump 15, { start [] with i := 4081 }), (.load 15, { start [] with i := 4081 }), (.draw 0 1 1, { start [] with i := 4096 })]
theorem witness_FaultsLeaveNoPartialEffect : ∀ c ∈ faultCases,
    exec c.1 c.2 = .next (ran c.1 c.2) ∧ c.2.status ≠ .faulted ∧ (ran c.1 c.2).status = .faulted := by
  simp only [faultCases, List.forall_mem_cons, List.not_mem_nil, false_imp_iff, implies_true, and_true]
  exact ⟨⟨rfl, by decide, by decide⟩, ⟨rfl, by decide, by decide⟩, ⟨rfl, by decide, by decide⟩, ⟨rfl, by decide, by decide⟩,
    ⟨rfl, by decide, by decide⟩, ⟨rfl, by decide, by decide⟩⟩
theorem witness_EachInstructionHasOneFault : ∀ c ∈ faultCases,
    exec c.1 c.2 = .next (ran c.1 c.2) ∧ c.2.status ≠ .faulted ∧ (ran c.1 c.2).status = .faulted :=
  witness_FaultsLeaveNoPartialEffect
theorem witness_PcAfterEachInstruction : exec (.eqConst 3 0) (start []) = .next (ran (.eqConst 3 0) (start [])) ∧
    (start []).status = .running ∧ (ran (.eqConst 3 0) (start [])).status ≠ .faulted ∧
    (ran (.eqConst 3 0) (start [])).status ≠ .cancelled := ⟨rfl, by decide, by decide, by decide⟩

theorem witness_CallPushesItsOwnAddress : ({ start [] with sp := 11 } : State).sp.toNat < stackDepth ∧
    (start []).sp.toNat < stackDepth := by decide
theorem witness_ReturnLandsPastTheCall : 0 < ({ start [] with sp := 12 } : State).sp.toNat ∧
    ({ start [] with sp := 12 } : State).sp.toNat ≤ stackDepth ∧ 0 < ({ start [] with sp := 1 } : State).sp.toNat := by decide
theorem witness_StackLimitsFault : ({ start [] with sp := 12 } : State).sp.toNat = 12 ∧ (start []).sp.toNat = 0 ∧
    12 < ({ start [] with sp := 13 } : State).sp.toNat := by decide
theorem witness_ReturnUndoesCall : ({ start [] with sp := 11 } : State).sp.toNat < stackDepth := by decide

/-- A destination other than VF and VF itself, under each of the three policies. -/
theorem witness_ArithmeticFormsFollowTheFlagPolicy : (1 : Reg) ≠ flagReg ∧ (start []).params.arithVf = .unchanged ∧
    (carrying (start [])).params.arithVf = .carryBorrow ∧
    ({ start [] with params := { defaultParams with arithVf := .any } } : State).params.arithVf = .any := by decide
theorem witness_ShiftsFlagThenShiftTheirRegister : (14 : Reg) ≠ flagReg ∧ (15 : Reg) = flagReg ∧ (1 : Reg) ≠ 14 := by decide
theorem witness_RandMasksTheDrawnByte : (0x0F : Byte).getLsbD 3 = true ∧ (0 : Byte) = 0 ∧ (0xFF : Byte) = 0xFF ∧ (1 : Reg) ≠ 3 := by
  decide

theorem witness_BcpStoresDecimalDigits : (start []).mem.wf ∧ ({ start [] with i := 4093 } : State).i.toNat + 2 < 4096 ∧
    4096 ≤ ({ start [] with i := 4094 } : State).i.toNat + 2 := by decide
/-- The exclusive setting of DUMP_LOAD_INCLUSIVE. -/
def exclusive (s : State) : State := { s with params := { s.params with dumpLoadInclusive := false } }
/-- No byte (count 0 when exclusive), the highest span that fits and the lowest that does not. -/
theorem witness_DumpStoresTheFirstRegisters : (start []).mem.wf ∧
    0 = (if (exclusive (start [])).params.dumpLoadInclusive then (0 : Count).val + 1 else (0 : Count).val) ∧
    16 = (if (start []).params.dumpLoadInclusive then (15 : Count).val + 1 else (15 : Count).val) ∧
    ({ start [] with i := 4080 } : State).i.toNat + 16 ≤ 4096 ∧
    4096 < ({ start [] with i := 4081 } : State).i.toNat + 16 := by decide
theorem witness_LoadReadsTheFirstRegisters :
    0 = (if (exclusive (start [])).params.dumpLoadInclusive then (0 : Count).val + 1 else (0 : Count).val) ∧
    16 = (if (start []).params.dumpLoadInclusive then (15 : Count).val + 1 else (15 : Count).val) ∧
    ({ start [] with i := 4080 } : State).i.toNat + 16 ≤ 4096 ∧
    4096 < ({ start [] with i := 4081 } : State).i.toNat + 16 := by decide

/-- A state about to dump two registers, and the state after. -/
def dumping : State := { start [(0, 0x12), (1, 0x34)] with i := 0x300 }
theorem witness_LoadRestoresWhatDumpStored : let t := ran (.dump 1) dumping
    dumping.mem.wf ∧ dumping.status = .running ∧ exec (.dump 1) dumping = .next t ∧ t.status = .running ∧
    t.mem = t.mem ∧ t.i = dumping.i ∧ t.params = dumping.params ∧
    (1 : Reg).val < (if dumping.params.dumpLoadInclusive then (1 : Count).val + 1 else (1 : Count).val) :=
  ⟨by decide, by decide, rfl, by decide, rfl, by decide, by decide, by decide⟩
theorem witness_StoresAreSeenByTheNextFetch : let t := ran (.dump 1) dumping; let u := { t with pc := 0x300 }
    (0 : Reg).val + 1 < 16 ∧ dumping.mem.wf ∧ dumping.status = .running ∧ exec (.dump 1) dumping = .next t ∧
    t.status = .running ∧ (0 : Reg).val + 1 < (if dumping.params.dumpLoadInclusive then (1 : Count).val + 1 else (1 : Count).val) ∧
    u.mem = t.mem ∧ u.pc.toNat = dumping.i.toNat + (0 : Reg).val :=
  ⟨by decide, by decide, by decide, rfl, by decide, by decide, rfl, by decide⟩
theorem witness_MemoryReadsBackWhatWasWritten : Memory.wf [(0x300, 5)] ∧ 4096 ≤ 4096 ∧ 4095 < 4096 ∧ (0 : Nat) ≠ 4095 := by decide
/-- The last byte of a full image is loaded, and a byte just below the image is not part of it. -/
theorem witness_LoadProgramTruncatesTheImage : State.reset.mem.wf ∧ 3583 < min (List.replicate 3585 (1 : Byte)).length 3584 ∧
    ∀ k < min (List.replicate 3585 (1 : Byte)).length 3584, 511 ≠ 512 + k :=
  ⟨Memory.reset_wf, by rw [List.length_replicate]; decide, fun _ _ => by omega⟩
theorem witness_BootLaysOutMemory : 79 < 80 ∧ 80 ≤ 511 ∧ 511 < 512 ∧ 1 < min [(0x12 : Byte), 0x00].length 3584 ∧
    512 + min [(0x12 : Byte), 0x00].length 3584 ≤ 514 := by decide
theorem witness_ResetValues : 11 < stackDepth := by decide

/-- VG2 and VG3: a sprite row at 0x300, drawn at column 62 of row 0. -/
def drawing : State := { store (start [(0, 62)]) 0x300 [0xF0] with i := 0x300 }
/-- VG10 as a witness of a collision: the sprite's second bit falls on a lit cell. -/
theorem witness_DrawCombinesByExclusiveOr : let s := lit drawing [(63, 0)]
    ∃ (bit : Nat → Nat → Bool) (hit : Prop), 62 = (s.reg 0).toNat ∧ 0 = (s.reg 1).toNat ∧
      (∀ r c, bit r c = (s.mem.byteAt (s.i.toNat + r)).getLsbD (7 - c)) ∧
      (hit ↔ ∃ r c, r < (1 : Count).val ∧ c < 8 ∧ s.fb.cell (62 + c) (0 + r) = true ∧
        (bit r c = true ∨ s.params.collideZeroBits = true)) ∧ s.i.toNat + (1 : Count).val ≤ 4096 ∧ hit :=
  ⟨_, _, by decide, by decide, fun _ _ => rfl, Iff.rfl, by decide, 0, 1, by decide, by decide, by decide, .inl (by decide)⟩
/-- No row, the highest rows that fit, and the lowest that do not. -/
theorem witness_DrawCombinesByExclusiveOr_ranges : (0 : Count).val = 0 ∧
    ({ start [] with i := 4081 } : State).i.toNat + (15 : Count).val ≤ 4096 ∧ 0 < (15 : Count).val ∧
    4096 < ({ start [] with i := 4082 } : State).i.toNat + (15 : Count).val := by decide
theorem witness_DrawingTwiceRestoresTheFramebuffer : let t := ran (.draw 0 1 1) drawing
    drawing.status = .running ∧ exec (.draw 0 1 1) drawing = .next t ∧ t.status = .running ∧
    t.reg 0 = drawing.reg 0 ∧ t.reg 1 = drawing.reg 1 ∧ exec (.draw 0 1 1) t = .next (ran (.draw 0 1 1) t) ∧
    drawing.fb.cell 62 0 = false ∧ t.fb.cell 62 0 = true :=
  ⟨by decide, rfl, by decide, by decide, by decide, rfl, by decide, by decide⟩
theorem witness_DrawOnClearScreenOrOfZerosIsHarmless : exec (.draw 0 1 1) drawing = .next (ran (.draw 0 1 1) drawing) ∧
    (∀ cx cy, drawing.fb.cell cx cy = false) ∧
    (let s := { drawing with i := 0x400 }; exec (.draw 0 1 1) s = .next (ran (.draw 0 1 1) s) ∧
      ∀ r, r < (1 : Count).val → s.mem.byteAt (s.i.toNat + r) = 0) :=
  ⟨rfl, fun cx cy => by
    show FrameBuffer.cell (Vector.replicate 32 (Vector.replicate 64 false)) cx cy = false
    simp [FrameBuffer.cell], rfl, by decide⟩

theorem witness_KeySkipsTestTheLatch : let s := { start [(2, 5)] with k := some 5 }
    (∃ k, s.k = some k ∧ k.val = (s.reg 2).toNat) ∧ ¬ ∃ k, (start [(2, 5)]).k = some k ∧ k.val = ((start [(2, 5)]).reg 2).toNat :=
  ⟨⟨5, by decide⟩, by rintro ⟨k, h, _⟩; cases h⟩
theorem witness_GetKeyTakesOnePoll : (polled (start []) [[.keyDown (.digit 0)]]).nextPoll = .key 0 ∧
    (polled (start []) [[.keyDown .other]]).nextPoll = .nothing ∧ (polled (start []) [[.quit]]).nextPoll = .quit := by decide
theorem witness_PollTakesQuitThenTheLastKey : HostEvent.quit ∈ [HostEvent.keyDown (.digit 1), .quit] ∧
    HostEvent.quit ∉ [HostEvent.keyDown (.digit 1)] ∧ keyCode (.letter 0) = some 10 := by decide

end Sys2Proof.Tests
end

section
/-! PROOFS. The core's invariant (spec/10_state.md R37, 45_keyboard_timers R202): the reset state meets it and every step
keeps it. -/

namespace Sys2Proof.Machine

variable {s t : State}

/-! ## What execution is bound to -/

/-- `s` is executing `i`: the run goes on, and `i` is the instruction fetched from PC, which is at most 4094. The fetched
state of a cycle is one, and `State.WaitAtGetKey` says that a key wait is one. -/
structure State.Executing (s : State) (i : Instr) : Prop where
  running : s.status = .running
  inRange : s.pc.toNat ≤ 4094
  fromPc : s.irAddr = s.pc
  word : decodeWord s.ir = i

/-- The execute step of a cycle begins with the decoded word executing. -/
theorem State.CanFetch.executing (h : s.CanFetch) : s.fetched.Executing (decodeWord s.wordAtPc) :=
  ⟨h.running, h.inRange, rfl, rfl⟩

/-- In a key wait the GET_KEY is executing. -/
theorem State.CoreInv.executing_getKey (h : s.CoreInv) {x : Reg} (hx : s.wait = some x) : s.Executing (.getKey x) :=
  have ⟨running, inRange, fromPc, word⟩ := h.wait x hx
  ⟨running, inRange, fromPc, word⟩

/-! ## Instructions that go on to what follows them -/

/-- The instructions that may leave PC elsewhere than at, just past or one instruction past themselves, and GET_KEY, which
may begin a wait (10_state R24). -/
def leavesSequence : Instr → Prop
  | .ret | .goto _ | .call _ | .jump _ | .getKey _ => True
  | _ => False

/-- What every other instruction does to PC, the call stack and the wait: PC stays (a fault), retires, or skips; the stack
and the wait are not reached. -/
structure State.Sequential (s t : State) : Prop where
  sp : t.sp = s.sp
  stack : t.stack = s.stack
  wait : t.wait = s.wait
  pc : t.pc = s.pc ∨ t.pc = s.pc + 2 ∨ t.pc = s.pc + 4

/-- Retiring from a state with the same PC, stack and wait. -/
theorem State.Sequential.of_retire {u : State} (hpc : u.pc = s.pc) (hsp : u.sp = s.sp) (hstack : u.stack = s.stack)
    (hwait : u.wait = s.wait) : s.Sequential u.retire :=
  ⟨hsp, hstack, hwait, .inr (.inl (by rw [State.retire_pc, hpc]))⟩

/-- A comparison's skip and retire. -/
theorem State.Sequential.of_skip (s : State) (c : Bool) : s.Sequential (s.skipIf c).retire := by
  rw [State.skipIf_retire]
  exact ⟨rfl, rfl, rfl, by cases c <;> simp⟩

/-- A fault. -/
theorem State.Sequential.of_raise (s : State) (c : Cause) (a : Nat) : s.Sequential (s.raise c a) :=
  ⟨rfl, rfl, rfl, .inl rfl⟩

/-- The result and the flag write of the arithmetic forms, then retire. -/
theorem State.Sequential.of_arith (s : State) (x : Reg) (b : Byte) (f : Bool) :
    s.Sequential ((s.setReg x b).writeArithFlag f).retire := by
  rw [State.writeArithFlag_eq]
  exact .of_retire rfl rfl rfl rfl

/-- The framebuffer and the flag write of DRAW, then retire. -/
theorem State.Sequential.of_drawing (s : State) (fb : FrameBuffer) (hit : Bool) :
    s.Sequential ((s.setFb fb).writeCollision hit).retire := by
  rw [State.writeCollision_eq]
  exact .of_retire rfl rfl rfl rfl

/-- A store at I. -/
theorem State.Sequential.of_storeAtIndex {bytes : List Byte} (h : s.storeAtIndex bytes = .next t) : s.Sequential t := by
  obtain ⟨m, -, rfl⟩ | ⟨-, rfl⟩ := storeAtIndex_next s h
  · exact .of_retire rfl rfl rfl rfl
  · exact .of_raise s _ _

/-- Every instruction that does not leave the sequence: it retires, skips or faults. -/
theorem exec_sequential {i : Instr} (hi : ¬ leavesSequence i) (h : exec i s = .next t) : s.Sequential t := by
  cases i with
  | ret | goto | call | jump | getKey => exact absurd trivial hi
  | eqConst | neqConst | eqReg | neqReg | keyP | keyNp => cases h; exact .of_skip s _
  | addReg | subReg | subtract => cases h; exact .of_arith s _ _ _
  | bcp | dump => exact .of_storeAtIndex h
  | draw x y n =>
    obtain ⟨rows, -, rfl⟩ | ⟨-, rfl⟩ := execDraw_next s h
    · exact .of_drawing s _ _
    · exact .of_raise s _ _
  | load x =>
    obtain ⟨bytes, -, rfl⟩ | ⟨-, rfl⟩ := execLoad_next s h
    · exact .of_retire (s.setRegs_pc bytes) (s.setRegs_sp bytes) (s.setRegs_stack bytes) (s.setRegs_wait bytes)
    · exact .of_raise s _ _
  | halt | clear | routine | setConst | addConst | setReg | orReg | andReg | xorReg | bshiftRght | bshiftLeft
  | seti | rand | getDelay | setDelay | setSound | addi | spri | noneInstr =>
    cases h
    exact .of_retire rfl rfl rfl rfl

/-! ## The invariant over each kind of move -/

/-- A move that leaves the stack alone, ends outside a key wait and keeps PC bounded keeps the invariant. -/
theorem State.CoreInv.of_same_stack (h : s.CoreInv) (hsp : t.sp = s.sp) (hstack : t.stack = s.stack)
    (hwait : t.wait = none) (hpc : t.PcBounded) : t.CoreInv where
  sp := by simpa only [State.SpBounded, hsp] using h.sp
  pc := hpc
  stack := by simpa only [State.StackHoldsFetchAddresses, hsp, hstack] using h.stack
  wait := fun x hx => by simp [hwait] at hx

/-- A transfer of control within PC's bound keeps the invariant. -/
theorem State.CoreInv.setPc (h : s.CoreInv) (hw : s.wait = none) {a : Word} (ha : a.toNat ≤ 0x10FE) :
    (s.setPc a).CoreInv :=
  h.of_same_stack rfl rfl hw ha

/-- The gap keeps the invariant: it reaches the timers and the tick schedule only. -/
theorem State.CoreInv.gap (h : s.CoreInv) : s.gap.CoreInv := by
  rw [State.gap_eq]
  exact ⟨h.sp, h.pc, h.stack, h.wait⟩

/-- The start of a cycle and the fetch keep the invariant. -/
theorem State.CoreInv.fetched (h : s.CoreInv) (hw : s.wait = none) : s.fetched.CoreInv :=
  h.of_same_stack rfl rfl hw h.pc

/-- PC stays within its bound: from at most 4094 no sequential move passes 4098. -/
theorem State.Sequential.keeps_coreInv (hst : s.Sequential t) (h : s.CoreInv) (hw : s.wait = none)
    (hpc : s.pc.toNat ≤ 4094) : t.CoreInv := by
  refine h.of_same_stack hst.sp hst.stack (hst.wait.trans hw) ?_
  obtain e | e | e := hst.pc <;> rw [State.PcBounded, e] <;> bv_omega

/-- RETURN retires past a live entry, which is at most 4094, and no entry becomes live (40_control_flow R133). -/
theorem execReturn_keeps_coreInv (h : s.CoreInv) (hw : s.wait = none) (he : execReturn s = .next t) : t.CoreInv := by
  obtain ⟨h0, hk, rfl⟩ | ⟨-, rfl⟩ := execReturn_next s he
  · have hsp : (s.sp - 1).toNat = s.sp.toNat - 1 := by bv_omega
    have hle := h.sp
    have hentry := h.stack _ hk (by omega)
    exact {
      sp := by simp only [State.SpBounded, State.retire_sp, State.setPc_sp, State.setStack_sp, hsp]; omega
      pc := by simp only [State.PcBounded, State.retire_pc, State.setPc_pc]; bv_omega
      stack := fun k hk' hlive => h.stack k hk' (by simp at hlive; omega)
      wait := fun x hx => by simp [hw] at hx }
  · exact h.of_same_stack rfl rfl hw h.pc

/-- CALL makes one entry live, its own address, which is at most 4094 (40_control_flow R135). -/
theorem execCall_keeps_coreInv {nnn : Addr12} (h : s.CoreInv) (hw : s.wait = none) (hpc : s.pc.toNat ≤ 4094)
    (he : execCall nnn s = .next t) : t.CoreInv := by
  obtain ⟨hk, rfl⟩ | ⟨-, rfl⟩ := execCall_next s he
  · have hsp : (s.sp + 1).toNat = s.sp.toNat + 1 := by
      simp only [stackDepth] at hk
      bv_omega
    exact {
      sp := by simp only [State.SpBounded, State.setPc_sp, State.setStack_sp, hsp]; omega
      pc := by simp only [State.PcBounded, State.setPc_pc, wordOfAddr]; bv_omega
      stack := fun k hk' hlive => by
        simp only [State.setPc_sp, State.setStack_sp, hsp] at hlive
        simp only [State.setPc_stack, State.setStack_stack, Vector.getElem_set]
        split
        · exact hpc
        · exact h.stack k hk' (by omega)
      wait := fun x hx => by simp [hw] at hx }
  · exact h.of_same_stack rfl rfl hw h.pc

/-- A poll of GET_KEY holds at the GET_KEY, retires past it, or ends the run outside a wait (45_keyboard_timers R202). -/
theorem execGetKey_keeps_coreInv {x : Reg} (h : s.CoreInv) (hx : s.Executing (.getKey x))
    (he : execGetKey x s = .next t) : t.CoreInv := by
  obtain ⟨running, inRange, fromPc, word⟩ := hx
  obtain rfl : s.afterPoll.keyWaitPoll x s.nextPoll = t := by simpa [execGetKey] using he
  cases s.nextPoll with
  | nothing => exact ⟨h.sp, h.pc, h.stack, fun y hy => by cases hy; exact ⟨running, inRange, fromPc, word⟩⟩
  | key k =>
    have hpc : (s.pc + 2).toNat ≤ 0x10FE := by bv_omega
    exact h.of_same_stack rfl rfl rfl hpc
  | quit => exact h.of_same_stack rfl rfl rfl h.pc

/-- Every instruction executed outside a key wait keeps the invariant. -/
theorem exec_keeps_coreInv {i : Instr} (h : s.CoreInv) (hi : s.Executing i) (hw : s.wait = none)
    (he : exec i s = .next t) : t.CoreInv := by
  by_cases hl : leavesSequence i
  · cases i with
    | ret => exact execReturn_keeps_coreInv h hw he
    | call => exact execCall_keeps_coreInv h hw hi.inRange he
    | getKey => exact execGetKey_keeps_coreInv h hi he
    | goto nnn =>
      cases he
      exact h.setPc hw (by rw [wordOfAddr]; bv_omega)
    | jump nnn =>
      cases he
      exact h.setPc hw (by rw [wordOfByte, wordOfAddr]; bv_omega)
    | _ => exact hl.elim
  · exact (exec_sequential hl he).keeps_coreInv h hw hi.inRange

/-! ## The obligations -/

/-- Settles O15: a step quits, cannot fetch, executes the fetched instruction, or polls the wait in progress, and each
keeps the invariant. -/
theorem stepKeepsTheCoreInvariant : Obligations.StepKeepsTheCoreInvariant := by
  intro s t h hst
  obtain ⟨-, hcases⟩ := step_next s hst
  obtain ⟨hw, -, rfl⟩ | ⟨hw, -, -, rfl⟩ | ⟨hw, -, -, rfl⟩ | ⟨hc, u, hu, rfl⟩ | ⟨x, u, hw, hu, rfl⟩ := hcases
  · exact h.of_same_stack rfl rfl hw h.pc
  · exact h.of_same_stack rfl rfl hw h.pc
  · exact h.of_same_stack rfl rfl hw h.pc
  · exact (exec_keeps_coreInv (h.fetched hc.noWait) hc.executing hc.noWait hu).gap
  · exact (execGetKey_keeps_coreInv h (h.executing_getKey hw) hu).gap

/-- The reset state meets the core's invariant: the stack is empty, PC is 512 and no key wait is in progress. -/
theorem State.reset_coreInv : State.reset.CoreInv where
  sp := by decide
  pc := by decide
  stack := fun _ _ hlive => absurd hlive (Nat.not_lt_zero _)
  wait := fun _ hx => nomatch hx

/-- The reset state's fault latches agree: it has taken no fault. -/
theorem State.reset_latchesAgree : State.reset.LatchesAgree :=
  show State.reset.status ≠ .faulted ∧ State.reset.faultAddr = 0 from ⟨by decide, rfl⟩

/-- Settles O14. -/
theorem resetMeetsTheInvariants : Obligations.ResetMeetsTheInvariants :=
  ⟨State.reset_coreInv, State.reset_latchesAgree, Memory.reset_wf⟩

end Sys2Proof.Machine
end

section
/-! PROOFS. Memory: the fetched word and the loading of a program image (spec/20_memory.md R52, R60). -/

namespace Sys2Proof.Machine

/-- A word of two bytes as a number, the first byte high-order (20_memory R52). -/
theorem wordOfBytes_toNat (hi lo : Byte) : (wordOfBytes hi lo).toNat = hi.toNat * 256 + lo.toNat := by
  rw [wordOfBytes, BitVec.toNat_append, ← Nat.shiftLeft_add_eq_or_of_lt lo.isLt, Nat.shiftLeft_eq]

/-- What each address reads as after a program image has been loaded: the image's bytes from PROG_BASE on, at most
PROG_MAX of them, and elsewhere the byte from before (20_memory R60). -/
theorem State.loadProgram_byteAt (s : State) (image : List Byte) (h : s.mem.wf) (a : Nat) :
    (s.loadProgram image).mem.byteAt a =
      if 512 ≤ a ∧ a < 512 + min image.length 3584 then image.getD (a - 512) 0 else s.mem.byteAt a := by
  have hlen : (image.take 3584).length = min image.length 3584 := by rw [List.length_take, Nat.min_comm]
  have hfits : 512 + (image.take 3584).length ≤ 4096 := by omega
  rw [State.loadProgram, State.setMem_mem, Memory.byteAt_fill _ _ _ h hfits, hlen]
  split
  next hin =>
    have hk : a - 512 < 3584 := by omega
    simp only [List.getD_eq_getElem?_getD, List.getElem?_take_of_lt hk]
  next => rfl

/-- Settles O6: the three ranges of PC are those of the fetch's three outcomes. -/
theorem fetchReadsTwoBytesHighOrderFirst : Obligations.FetchReadsTwoBytesHighOrderFirst :=
  fun s => ⟨fun h => ⟨_, s.fetch_ok h, wordOfBytes_toNat _ _⟩, s.fetch_last, s.fetch_beyond⟩

/-- Settles O49: an address lies in the range loaded exactly when it is 512 + k for some k below the length loaded. -/
theorem loadProgramTruncatesTheImage : Obligations.LoadProgramTruncatesTheImage := by
  intro s image h
  refine ⟨fun k hk => ?_, fun a ha => ?_, rfl⟩
  · have hin : 512 ≤ 512 + k ∧ 512 + k < 512 + min image.length 3584 := by omega
    rw [s.loadProgram_byteAt image h, if_pos hin, Nat.add_sub_cancel_left]
  · have hout : ¬ (512 ≤ a ∧ a < 512 + min image.length 3584) := fun hin => ha (a - 512) (by omega) (by omega)
    rw [s.loadProgram_byteAt image h, if_neg hout]

end Sys2Proof.Machine
end

section
/-! PROOFS. The decode procedure against the decode table (spec/30_encoding.md R83, R84): which words a row's mask and fixed
bits admit, and the row that each family of the procedure selects. -/

namespace Sys2Proof

/-! ## The words that have a row's fixed bits

Each mask of the table but NONE's fixes the first nibble, so its rule has that nibble as a condition of its own: a row of
another first nibble drops out whatever else it asks. -/

/-- `w & mask = fixed` (30_encoding R84). -/
def Row.admits (r : Row) (w : Word) : Bool := w &&& r.mask == r.fixed

variable {w : Word} (name : String) (fixed : Word)

/-- A comparison of masked bits is one of their values. -/
theorem Row.admits_eq_toNat (mask : Word) :
    Row.admits ⟨name, fixed, mask⟩ w = decide ((w &&& mask).toNat = fixed.toNat) := by
  rw [Row.admits, Bool.beq_eq_decide_eq, decide_eq_decide, BitVec.toNat_inj]

@[simp] theorem Row.admits_word :
    Row.admits ⟨name, fixed, 0xFFFF#16⟩ w = decide (opOf w = fixed.toNat / 4096 ∧ w = fixed) := by
  have hand : w &&& 0xFFFF#16 = w := BitVec.and_allOnes
  rw [Row.admits_eq_toNat, hand, decide_eq_decide, BitVec.toNat_inj]
  exact ⟨fun h => ⟨by rw [h, opOf], h⟩, And.right⟩

@[simp] theorem Row.admits_op : Row.admits ⟨name, fixed, 0xF000#16⟩ w =
    decide (opOf w = fixed.toNat / 4096 ∧ fixed.toNat % 4096 = 0) := by
  rw [Row.admits_eq_toNat, mask_op, decide_eq_decide]
  omega

@[simp] theorem Row.admits_op_n : Row.admits ⟨name, fixed, 0xF00F#16⟩ w =
    decide (opOf w = fixed.toNat / 4096 ∧ (nOf w).val = fixed.toNat % 4096) := by
  rw [Row.admits_eq_toNat, mask_op_n, decide_eq_decide]
  omega

@[simp] theorem Row.admits_op_nn : Row.admits ⟨name, fixed, 0xF0FF#16⟩ w =
    decide (opOf w = fixed.toNat / 4096 ∧ (nnOf w).toNat = fixed.toNat % 4096) := by
  rw [Row.admits_eq_toNat, mask_op_nn, decide_eq_decide]
  omega

@[simp] theorem Row.admits_any : Row.admits ⟨name, 0#16, 0#16⟩ w = true := by
  rw [Row.admits, BitVec.and_zero, beq_self_eq_true]

/-- The search of the table. -/
theorem selectedRow_eq_find?_admits (w : Word) : selectedRow w = decodeTable.find? (·.admits w) := rfl

/-! ## The row each family of the procedure selects -/

/-- Family 0: the three fixed words, then ROUTINE, which every other word of the family has. -/
theorem selectedRow_of_decodeFamily0 (h : opOf w = 0x0) : selectedRow w = some (rowOf (decodeFamily0 w)) := by
  rw [selectedRow_eq_find?_admits, decodeFamily0]
  split_ifs <;> simp_all [decodeTable, variants, rowOf]

/-- Family 8: the rows tell the last nibble apart. -/
theorem selectedRow_of_decodeFamily8 (h : opOf w = 0x8) : selectedRow w = some (rowOf (decodeFamily8 w)) := by
  rw [selectedRow_eq_find?_admits, decodeFamily8]
  split <;> simp_all [decodeTable, variants, rowOf]

/-- Family E: the rows tell the low byte apart. -/
theorem selectedRow_of_decodeFamilyE (h : opOf w = 0xE) : selectedRow w = some (rowOf (decodeFamilyE w)) := by
  rw [selectedRow_eq_find?_admits, decodeFamilyE]
  split <;> simp_all [decodeTable, variants, rowOf]

/-- Family F: the rows tell the low byte apart. -/
theorem selectedRow_of_decodeFamilyF (h : opOf w = 0xF) : selectedRow w = some (rowOf (decodeFamilyF w)) := by
  rw [selectedRow_eq_find?_admits, decodeFamilyF]
  split <;> simp_all [decodeTable, variants, rowOf]

/-- The row selected is the decoded instruction's: by the first nibble, a family of several rows, one row and NONE, or one
row that every word of the family has. -/
theorem selectedRow_eq_rowOf_decodeWord (w : Word) : selectedRow w = some (rowOf (decodeWord w)) := by
  rw [decodeWord]
  split
  case h_1 h => exact selectedRow_of_decodeFamily0 h
  case h_9 h => exact selectedRow_of_decodeFamily8 h
  case h_15 h => exact selectedRow_of_decodeFamilyE h
  case h_16 h => exact selectedRow_of_decodeFamilyF h
  case h_6 h | h_10 h =>
    rw [selectedRow_eq_find?_admits]
    split_ifs with hn <;> simp [decodeTable, variants, rowOf, h, hn]
  all_goals simp_all [selectedRow_eq_find?_admits, decodeTable, variants, rowOf]

/-- Every branch of the procedure takes its operands from the word's fields. -/
theorem decodeWord_operandsFrom (w : Word) : (decodeWord w).operandsFrom w := by
  rw [decodeWord, decodeFamily0, decodeFamily8, decodeFamilyE, decodeFamilyF]
  repeat' split
  all_goals simp [Instr.operandsFrom]

/-- Settles O3: the row by the families of the procedure, the operands by its branches. -/
theorem decodeSelectsTheTableRow : Obligations.DecodeSelectsTheTableRow :=
  fun w => ⟨selectedRow_eq_rowOf_decodeWord w, decodeWord_operandsFrom w⟩

end Sys2Proof
end

section
/-! PROOFS. The blocks of the core: reading and writing one byte of memory, and the timers' tick
(spec/36_cycle_and_blocks.md R101, R104). -/

namespace Sys2Proof.Machine

/-! ## One access to memory (R101) -/

theorem Memory.read_below (m : Memory) {a : Nat} (h : a < 4096) : m.read a = some (m.byteAt a) :=
  if_pos h

theorem Memory.read_beyond (m : Memory) {a : Nat} (h : 4096 ≤ a) : m.read a = none :=
  if_neg (Nat.not_lt.mpr h)

theorem Memory.write_below (m : Memory) {a : Nat} (x : Byte) (h : a < 4096) : m.write a x = some (m.put a x) :=
  if_pos h

theorem Memory.write_beyond (m : Memory) {a : Nat} (x : Byte) (h : 4096 ≤ a) : m.write a x = none :=
  if_neg (Nat.not_lt.mpr h)

/-- The address replaced reads as the byte written. -/
theorem Memory.read_put_same {m : Memory} (hm : m.wf) {a : Nat} (x : Byte) (h : a < 4096) :
    (m.put a x).read a = some x := by
  rw [Memory.read_below _ h, Memory.byteAt_put m a x a hm, if_pos rfl]

/-- Every other address reads, or faults, as before. -/
theorem Memory.read_put_of_ne {m : Memory} (hm : m.wf) {a b : Nat} (x : Byte) (hb : b ≠ a) :
    (m.put a x).read b = m.read b := by
  rw [Memory.read, Memory.read, Memory.byteAt_put m a x b hm, if_neg hb]

/-- Settles O48: the memory a write answers is the one with the byte put in its place. -/
theorem memoryReadsBackWhatWasWritten : Obligations.MemoryReadsBackWhatWasWritten :=
  fun m a x hm =>
    ⟨fun h => ⟨m.read_beyond h, m.write_beyond x h⟩,
     fun h => ⟨m.read_below h, m.put a x, m.write_below x h, m.put_wf a x hm h, Memory.read_put_same hm x h,
       fun _ hb => Memory.read_put_of_ne hm x hb⟩⟩

/-! ## The timers (R104) -/

/-- A tick of one timer, as natural numbers: their subtraction has the timer's floor of zero. -/
theorem tickTimer_toNat (t : Byte) : (tickTimer t).toNat = t.toNat - 1 := by
  rw [tickTimer]
  split
  next hzero => rw [hzero]; rfl
  next hpos => bv_omega

/-- Settles O59: the tick moves each timer by `tickTimer`; the frame and the loads are the updates as defined. -/
theorem tickDecrementsWithAFloorOfZero : Obligations.TickDecrementsWithAFloorOfZero :=
  fun s => ⟨tickTimer_toNat s.dt, tickTimer_toNat s.st, rfl, fun _ => ⟨rfl, rfl⟩⟩

end Sys2Proof.Machine
end

section
/-! PROOFS. Control flow: the program counter after GOTO and JUMP (spec/40_control_flow.md R134, R136). -/

namespace Sys2Proof.Machine

/-- GOTO moves PC alone. -/
theorem exec_goto (s : State) (nnn : Addr12) : exec (.goto nnn) s = .next (s.setPc (wordOfAddr nnn)) := rfl

/-- JUMP moves PC alone. -/
theorem exec_jump (s : State) (nnn : Addr12) :
    exec (.jump nnn) s = .next (s.setPc (wordOfByte (s.reg 0) + wordOfAddr nnn)) := rfl

@[simp] theorem wordOfAddr_toNat (nnn : Addr12) : (wordOfAddr nnn).toNat = nnn.toNat :=
  BitVec.toNat_setWidth_of_le (by decide)

@[simp] theorem wordOfByte_toNat (b : Byte) : (wordOfByte b).toNat = b.toNat :=
  BitVec.toNat_setWidth_of_le (by decide)

/-- The target of JUMP does not wrap: a byte and a 12-bit address sum to at most 0x10FE. -/
theorem wordOfByte_add_wordOfAddr_toNat (b : Byte) (nnn : Addr12) :
    (wordOfByte b + wordOfAddr nnn).toNat = b.toNat + nnn.toNat := by
  have hb : b.toNat < 256 := b.isLt
  have hnnn : nnn.toNat < 4096 := nnn.isLt
  rw [BitVec.toNat_add, wordOfByte_toNat, wordOfAddr_toNat]
  exact Nat.mod_eq_of_lt (by omega)

/-- Settles O30: both set PC and nothing else, and neither target wraps. -/
theorem gotoAndJumpSetThePc : Obligations.GotoAndJumpSetThePc :=
  fun s nnn =>
    ⟨⟨_, exec_goto s nnn, wordOfAddr_toNat nnn, rfl⟩,
     ⟨_, exec_jump s nnn, wordOfByte_add_wordOfAddr_toNat (s.reg 0) nnn, rfl⟩⟩

end Sys2Proof.Machine
end

section
/-! PROOFS. The four comparisons EQ, NEQ, EQ_REG and NEQ_REG (spec/41_skips.md R150 to R153). -/

namespace Sys2Proof.Machine

/-- A skip on a Boolean test and the retire after it, for the condition that the test decides. -/
theorem State.skipIf_retire_of_iff (s : State) {c : Bool} {p : Prop} [Decidable p] (h : c = true ↔ p) :
    (s.skipIf c).retire = { s with pc := if p then s.pc + 4 else s.pc + 2 } := by
  rw [State.skipIf_retire, State.setPc]
  simp only [h]

/-- EQ compares V[x] with the immediate (R150). -/
theorem exec_eqConst (s : State) (x : Reg) (nn : Byte) :
    exec (.eqConst x nn) s = .next { s with pc := if s.reg x = nn then s.pc + 4 else s.pc + 2 } :=
  congrArg Host.Outcome.next (s.skipIf_retire_of_iff beq_iff_eq)

/-- NEQ is the opposite test (R151). -/
theorem exec_neqConst (s : State) (x : Reg) (nn : Byte) :
    exec (.neqConst x nn) s = .next { s with pc := if s.reg x ≠ nn then s.pc + 4 else s.pc + 2 } :=
  congrArg Host.Outcome.next (s.skipIf_retire_of_iff bne_iff_ne)

/-- EQ_REG compares two registers (R152). -/
theorem exec_eqReg (s : State) (x y : Reg) :
    exec (.eqReg x y) s = .next { s with pc := if s.reg x = s.reg y then s.pc + 4 else s.pc + 2 } :=
  congrArg Host.Outcome.next (s.skipIf_retire_of_iff beq_iff_eq)

/-- NEQ_REG is the opposite test (R153). -/
theorem exec_neqReg (s : State) (x y : Reg) :
    exec (.neqReg x y) s = .next { s with pc := if s.reg x ≠ s.reg y then s.pc + 4 else s.pc + 2 } :=
  congrArg Host.Outcome.next (s.skipIf_retire_of_iff bne_iff_ne)

/-- Settles O35: each comparison is a skip on its test, then a retire. -/
theorem skipsFollowTheirComparison : Obligations.SkipsFollowTheirComparison :=
  fun s x y nn => ⟨exec_eqConst s x nn, exec_neqConst s x nn, exec_eqReg s x y, exec_neqReg s x y⟩

end Sys2Proof.Machine
end

section
/-! PROOFS. The register frame: which general registers each instruction may write (spec/10_state.md R21, R22;
43_index_memory R185). -/

namespace Sys2Proof.Machine

variable {s t : State} {y : Reg}

/-! ## Registers that an operation does not reach -/

/-- A register write keeps the other registers (36_cycle_and_blocks R102). -/
theorem State.setReg_reg_of_ne {x : Reg} (b : Byte) (h : y ≠ x) : (s.setReg x b).reg y = s.reg y := by
  rw [State.setReg_reg, if_neg h]

/-- A block write keeps the registers past its end (43_index_memory R185). -/
theorem State.setRegs_reg_of_length_le {bytes : List Byte} (h : bytes.length ≤ y.val) :
    (s.setRegs bytes).reg y = s.reg y := by
  rw [State.setRegs_reg, List.getD_eq_default _ _ h]

/-- A skip reaches no register (41_skips). -/
theorem State.skipIf_reg (s : State) (c : Bool) (y : Reg) : (s.skipIf c).reg y = s.reg y := by
  cases c <;> rfl

/-- The flag write of the arithmetic forms reaches VF only, and not under the policy unchanged (42_alu R173). -/
theorem State.writeArithFlag_reg_of_not_flag (f : Bool) (h : ¬ (y = flagReg ∧ s.params.arithVf ≠ .unchanged)) :
    (s.writeArithFlag f).reg y = s.reg y := by
  rw [State.writeArithFlag_reg]
  cases hp : s.params.arithVf with
  | unchanged => rfl
  | carryBorrow | any => exact if_neg fun hy => h ⟨hy, by simp [hp]⟩

/-- The result and the flag write of ADD_REG, SUB_REG and SUBTRACT. -/
theorem State.arith_reg_of_not_written {x : Reg} (b : Byte) (f : Bool)
    (h : ¬ (y = x ∨ (y = flagReg ∧ s.params.arithVf ≠ .unchanged))) :
    ((s.setReg x b).writeArithFlag f).reg y = s.reg y := by
  obtain ⟨hx, hflag⟩ := not_or.mp h
  exact (State.writeArithFlag_reg_of_not_flag (s := s.setReg x b) f hflag).trans (State.setReg_reg_of_ne b hx)

/-- The flag write and the result of the two shifts (42_alu R176). -/
theorem State.shift_reg_of_not_written {x : Reg} (f b : Byte) (h : ¬ (y = x ∨ y = flagReg)) :
    ((s.setReg flagReg f).setReg x b).reg y = s.reg y := by
  obtain ⟨hx, hflag⟩ := not_or.mp h
  rw [State.setReg_reg_of_ne b hx, State.setReg_reg_of_ne f hflag]

/-- The flag write of DRAW reaches VF only (44_display R191). -/
theorem State.writeCollision_reg_of_ne (hit : Bool) (h : y ≠ flagReg) : (s.writeCollision hit).reg y = s.reg y := by
  rw [State.writeCollision_reg, if_neg fun hy => h hy.2]

/-- A poll of the key wait reaches the destination of its GET_KEY only (45_keyboard_timers R202). -/
theorem State.keyWaitPoll_reg_of_ne {x : Reg} (p : Poll) (h : y ≠ x) : (s.keyWaitPoll x p).reg y = s.reg y := by
  cases p with
  | nothing | quit => rfl
  | key k => exact State.setReg_reg_of_ne (byteOfKey k) h

/-! ## Instructions with more than one outcome -/

/-- A span that could be read has as many bytes as were asked for. -/
theorem Memory.length_of_readSpan {m : Memory} {n a : Nat} {bytes : List Byte} (h : m.readSpan a n = some bytes) :
    bytes.length = n := by
  by_cases hfits : n = 0 ∨ a + n ≤ memSize
  · rw [Memory.readSpan_eq m n a hfits] at h
    cases h
    simp
  · obtain ⟨hn, hbeyond⟩ := not_or.mp hfits
    rw [Memory.readSpan_none m n a (by omega) (by omega)] at h
    cases h

/-- CALL reaches no register. -/
theorem execCall_reg {nnn : Addr12} (h : execCall nnn s = .next t) : t.reg y = s.reg y := by
  obtain ⟨_, rfl⟩ | ⟨_, rfl⟩ := execCall_next s h <;> rfl

/-- RETURN reaches no register. -/
theorem execReturn_reg (h : execReturn s = .next t) : t.reg y = s.reg y := by
  obtain ⟨_, _, rfl⟩ | ⟨_, rfl⟩ := execReturn_next s h <;> rfl

/-- BCP and DUMP reach no register. -/
theorem storeAtIndex_reg {bytes : List Byte} (h : s.storeAtIndex bytes = .next t) : t.reg y = s.reg y := by
  obtain ⟨_, _, rfl⟩ | ⟨_, rfl⟩ := storeAtIndex_next s h <;> rfl

/-- LOAD keeps the registers past its range, whichever setting DUMP_LOAD_INCLUSIVE has (43_index_memory R185). -/
theorem execLoad_reg_of_blockLength_le {x : Count} (h : execLoad x s = .next t) (hy : s.blockLength x ≤ y.val) :
    t.reg y = s.reg y := by
  obtain ⟨bytes, hread, rfl⟩ | ⟨_, rfl⟩ := execLoad_next s h
  · exact State.setRegs_reg_of_length_le (by rw [Memory.length_of_readSpan hread]; exact hy)
  · rfl

/-- DRAW keeps every register but VF (44_display R191). -/
theorem execDraw_reg_of_ne {x z : Reg} {n : Count} (h : execDraw x z n s = .next t) (hy : y ≠ flagReg) :
    t.reg y = s.reg y := by
  obtain ⟨rows, _, rfl⟩ | ⟨_, rfl⟩ := execDraw_next s h
  · exact State.writeCollision_reg_of_ne (s := s.setFb (s.drawn x z rows).1) _ hy
  · rfl

/-! ## The obligation -/

/-- Settles O20: in each group of instructions, what `mayWrite` rules out is what the group's register write does not
reach. -/
theorem registersWrittenAreTheTables : Obligations.RegistersWrittenAreTheTables := by
  intro i s t y h hy
  cases i with
  | ret => exact execReturn_reg h
  | call => exact execCall_reg h
  | bcp | dump => exact storeAtIndex_reg h
  | load => exact execLoad_reg_of_blockLength_le h (Nat.le_of_not_lt hy)
  | draw => exact execDraw_reg_of_ne h hy
  | setConst | addConst | setReg | orReg | andReg | xorReg | getDelay => cases h; exact State.setReg_reg_of_ne _ hy
  | rand => cases h; exact State.setReg_reg_of_ne (s := s.afterDraw) _ hy
  | getKey => cases h; exact State.keyWaitPoll_reg_of_ne (s := s.afterPoll) _ hy
  | addReg | subReg | subtract => cases h; exact State.arith_reg_of_not_written _ _ hy
  | bshiftRght | bshiftLeft => cases h; exact State.shift_reg_of_not_written _ _ hy
  | eqConst | neqConst | eqReg | neqReg | keyP | keyNp => cases h; exact s.skipIf_reg _ y
  | halt | clear | routine | goto | jump | seti | setDelay | setSound | addi | spri | noneInstr => cases h; rfl

end Sys2Proof.Machine
end

section
/-! PROOFS. The display instruction CLEAR (spec/44_display.md R190). -/

namespace Sys2Proof.Machine

/-- CLEAR puts the cleared framebuffer in place and retires; nothing else is written (44_display R190). -/
theorem exec_clear (s : State) :
    exec .clear s = .next { s with fb := FrameBuffer.cleared, pc := s.pc + 2 } := rfl

/-- Settles O52: the framebuffer put in place is the one whose every cell reads off. -/
theorem clearTurnsEveryCellOff : Obligations.ClearTurnsEveryCellOff := fun s =>
  ⟨_, exec_clear s, FrameBuffer.cell_cleared, rfl⟩

end Sys2Proof.Machine
end

section
/-! PROOFS. The timer instructions GET_DELAY, SET_DELAY and SET_SOUND (spec/45_keyboard_timers.md R203 to R205). -/

namespace Sys2Proof.Machine

/-- The register just written reads the byte written. -/
theorem State.setReg_reg_same (s : State) (x : Reg) (b : Byte) : (s.setReg x b).reg x = b := by
  rw [State.setReg_reg, if_pos rfl]

/-- GET_DELAY writes one register and retires; DT is read and kept (45_keyboard_timers R203). -/
theorem exec_getDelay (s : State) (x : Reg) : exec (.getDelay x) s = .next (s.setReg x s.dt).retire := rfl

/-- SET_DELAY loads DT and retires; no register is written (45_keyboard_timers R204). -/
theorem exec_setDelay (s : State) (x : Reg) :
    exec (.setDelay x) s = .next { s with dt := s.reg x, pc := s.pc + 2 } := rfl

/-- SET_SOUND loads ST and retires; no register is written (45_keyboard_timers R205). -/
theorem exec_setSound (s : State) (x : Reg) :
    exec (.setSound x) s = .next { s with st := s.reg x, pc := s.pc + 2 } := rfl

/-- Settles O58: GET_DELAY is a register write and each of the other two a timer load, then a retire. -/
theorem timerInstructionsMoveTheirTimer : Obligations.TimerInstructionsMoveTheirTimer := fun s x =>
  ⟨⟨_, exec_getDelay s x, s.setReg_reg_same x s.dt, fun _ hy => State.setReg_reg_of_ne s.dt hy, rfl⟩,
   exec_setDelay s x, exec_setSound s x⟩

end Sys2Proof.Machine
end

section
/-! PROOFS. The values reset leaves (spec/70_reset_and_hazards.md R240). -/

namespace Sys2Proof.Machine

/-- Every register is zero at reset (92_eei_decisions D12). -/
theorem State.reset_reg (x : Reg) : State.reset.reg x = 0 := Vector.getElem_replicate x.isLt

/-- Every entry of the call stack is zero at reset (92_eei_decisions D12). -/
theorem State.reset_stack (k : Nat) (h : k < stackDepth) : State.reset.stack[k] = 0 := Vector.getElem_replicate h

/-- Reset leaves the cleared framebuffer in place. -/
theorem State.reset_fb : State.reset.fb = FrameBuffer.cleared := rfl

/-- Every cell is off at reset (92_eei_decisions D12). -/
theorem State.reset_cell (x y : Nat) : State.reset.fb.cell x y = false :=
  State.reset_fb ▸ FrameBuffer.cell_cleared x y

/-- Settles O51: the registers, stack entries, cells and bytes of memory each by their own lemma, and each other field
by its value in `State.reset`. -/
theorem resetValues : Obligations.ResetValues := by
  refine ⟨?pc, State.reset_reg, ?i, ?sp, State.reset_stack, ?dt, ?st, State.reset_cell, ?k, ?status, ?faultCause,
    ?faultAddr, ?ir, ?irAddr, ?wait, Memory.reset_byteAt⟩
  all_goals rfl

end Sys2Proof.Machine
end

section
/-! PROOFS. Decoder and encoder are inverse to each other, and the words of NONE and ROUTINE (spec/30_encoding.md R83 to R90). -/

namespace Sys2Proof

/-! ## Decoding what was encoded -/

/-- The addresses that ROUTINE cannot have (30_encoding R90). -/
theorem Instr.wellFormed_routine_iff {nnn : Addr12} :
    (Instr.routine nnn).WellFormed ↔ nnn ≠ 0x000 ∧ nnn ≠ 0x0E0 ∧ nnn ≠ 0x0EE := by
  simp [Instr.WellFormed, Instr.wellFormed, and_assoc]

/-- Two words of family 0 with different addresses differ. -/
theorem formA_ne {a b : Addr12} (h : a ≠ b) : formA 0x0 a ≠ formA 0x0 b := fun e => h <| by
  rw [← nnnOf_formA 0x0 a (by decide), e, nnnOf_formA 0x0 b (by decide)]

/-- ROUTINE's word is none of the three fixed words of its family. -/
theorem decodeFamily0_formA {nnn : Addr12} (h : (Instr.routine nnn).WellFormed) :
    decodeFamily0 (formA 0x0 nnn) = .routine nnn := by
  obtain ⟨h0, h1, h2⟩ := Instr.wellFormed_routine_iff.mp h
  have hhalt : formA 0x0 nnn ≠ 0x0000 := formA_ne h0
  have hclear : formA 0x0 nnn ≠ 0x00E0 := formA_ne h1
  have hret : formA 0x0 nnn ≠ 0x00EE := formA_ne h2
  rw [decodeFamily0, if_neg hhalt, if_neg hclear, if_neg hret, nnnOf_formA 0x0 nnn (by decide)]

/-- Settles O1: in each format the fields of the encoder's word are the operands, so the procedure selects the variant and
reads them back. -/
theorem decodeOfEncodeIsIdentity : Obligations.DecodeOfEncodeIsIdentity := by
  intro i hi
  cases i with
  | halt | clear | ret | noneInstr => decide
  | routine nnn =>
    rw [encode, decodeWord, opOf_formA 0x0 nnn (by decide)]
    exact decodeFamily0_formA hi
  | goto | call | seti | jump => simp [encode, decodeWord, opOf_formA, nnnOf_formA]
  | eqConst | neqConst | setConst | addConst | rand => simp [encode, decodeWord, opOf_formXK, xOf_formXK, nnOf_formXK]
  | eqReg | neqReg | draw => simp [encode, decodeWord, opOf_formXYN, xOf_formXYN, yOf_formXYN, nOf_formXYN]
  | setReg | orReg | andReg | xorReg | addReg | subReg | bshiftRght | subtract | bshiftLeft =>
    simp [encode, decodeWord, decodeFamily8, opOf_formXYN, xOf_formXYN, yOf_formXYN, nOf_formXYN]
  | keyP | keyNp => simp [encode, decodeWord, decodeFamilyE, opOf_formXK, xOf_formXK, nnOf_formXK]
  | getDelay | getKey | setDelay | setSound | addi | spri | bcp | dump | load =>
    simp [encode, decodeWord, decodeFamilyF, opOf_formXK, xOf_formXK, nnOf_formXK]

/-! ## A word of known first nibble is made of its other fields -/

section Fields

variable {w : Word} {op : Nat} (h : opOf w = op)
include h

theorem formA_of_opOf : formA op (nnnOf w) = w := h ▸ formA_fields w

theorem formXK_of_opOf : formXK op (xOf w) (nnOf w) = w := h ▸ formXK_fields w

theorem formXYN_of_opOf : formXYN op (xOf w) (yOf w) (nOf w) = w := h ▸ formXYN_fields w

/-- Format XF: the low byte is known too. -/
theorem formXK_of_nnOf {nn : Nat} (hnn : (nnOf w).toNat = nn) : formXK op (xOf w) (BitVec.ofNat 8 nn) = w := by
  rw [← hnn, BitVec.ofNat_toNat, BitVec.setWidth_eq, formXK_of_opOf h]

/-- Format XY: the last nibble is known too. -/
theorem formXYN_of_nOf {n : Nat} (hn : (nOf w).val = n) : formXYN op (xOf w) (yOf w) (Fin.ofNat 16 n) = w := by
  rw [← hn, Fin.ofNat_val_eq_self, formXYN_of_opOf h]

end Fields

/-! ## Encoding what was decoded -/

variable {w : Word}

/-- `i` is well formed and, unless it is NONE, has `w` as its word. -/
def Instr.EncodesBack (w : Word) (i : Instr) : Prop :=
  i.WellFormed ∧ (i ≠ .noneInstr → encode i = w)

theorem Instr.noneInstr_encodesBack : Instr.noneInstr.EncodesBack w := ⟨rfl, fun h => absurd rfl h⟩

/-- A word of family 0 that is none of the three fixed ones has an address that is none of theirs. -/
theorem wellFormed_routine_nnnOf (h : opOf w = 0x0) (hhalt : w ≠ 0x0000) (hclear : w ≠ 0x00E0) (hret : w ≠ 0x00EE) :
    (Instr.routine (nnnOf w)).WellFormed := by
  have hne : ∀ a : Addr12, w ≠ formA 0x0 a → nnnOf w ≠ a := fun a ha e => ha (e ▸ (formA_of_opOf h).symm)
  exact Instr.wellFormed_routine_iff.mpr ⟨hne 0x000 hhalt, hne 0x0E0 hclear, hne 0x0EE hret⟩

/-- Family 0: one of the three fixed words, or ROUTINE's. -/
theorem decodeFamily0_encodesBack (h : opOf w = 0x0) : (decodeFamily0 w).EncodesBack w := by
  rw [decodeFamily0]
  split_ifs with hhalt hclear hret
  · exact ⟨rfl, fun _ => hhalt.symm⟩
  · exact ⟨rfl, fun _ => hclear.symm⟩
  · exact ⟨rfl, fun _ => hret.symm⟩
  · exact ⟨wellFormed_routine_nnnOf h hhalt hclear hret, fun _ => formA_of_opOf h⟩

/-- Families 5 and 9: the last nibble of the one variant is 0. -/
theorem encodesBack_of_last_nibble_zero {op : Nat} {i : Instr} (h : opOf w = op) (hwf : i.WellFormed)
    (hi : encode i = formXYN op (xOf w) (yOf w) 0) : (if nOf w = 0 then i else .noneInstr).EncodesBack w := by
  split_ifs with hn
  · exact ⟨hwf, fun _ => by rw [hi, ← hn, formXYN_of_opOf h]⟩
  · exact Instr.noneInstr_encodesBack

/-- Family 8: the last nibble is the variant's. -/
theorem decodeFamily8_encodesBack (h : opOf w = 0x8) : (decodeFamily8 w).EncodesBack w := by
  rw [decodeFamily8]
  split
  case h_10 => exact Instr.noneInstr_encodesBack
  all_goals exact ⟨rfl, fun _ => formXYN_of_nOf h (by assumption)⟩

/-- Family E: the low byte is the variant's. -/
theorem decodeFamilyE_encodesBack (h : opOf w = 0xE) : (decodeFamilyE w).EncodesBack w := by
  rw [decodeFamilyE]
  split
  case h_3 => exact Instr.noneInstr_encodesBack
  all_goals exact ⟨rfl, fun _ => formXK_of_nnOf h (by assumption)⟩

/-- Family F: the low byte is the variant's. -/
theorem decodeFamilyF_encodesBack (h : opOf w = 0xF) : (decodeFamilyF w).EncodesBack w := by
  rw [decodeFamilyF]
  split
  case h_10 => exact Instr.noneInstr_encodesBack
  all_goals exact ⟨rfl, fun _ => formXK_of_nnOf h (by assumption)⟩

/-- Settles O2: by the first nibble, a family of several variants, or one format whose fields make up the word. -/
theorem encodeOfDecodeIsIdentity : Obligations.EncodeOfDecodeIsIdentity := by
  intro w
  change (decodeWord w).EncodesBack w
  rw [decodeWord]
  split
  case h_1 h => exact decodeFamily0_encodesBack h
  case h_9 h => exact decodeFamily8_encodesBack h
  case h_15 h => exact decodeFamilyE_encodesBack h
  case h_16 h => exact decodeFamilyF_encodesBack h
  case h_6 h | h_10 h => exact encodesBack_of_last_nibble_zero h rfl rfl
  case h_2 h | h_3 h | h_11 h | h_12 h => exact ⟨rfl, fun _ => formA_of_opOf h⟩
  case h_4 h | h_5 h | h_7 h | h_8 h | h_13 h => exact ⟨rfl, fun _ => formXK_of_opOf h⟩
  case h_14 h => exact ⟨rfl, fun _ => formXYN_of_opOf h⟩
  case h_17 => exact Instr.noneInstr_encodesBack

/-! ## The words of NONE and of ROUTINE -/

/-- Family 8: the last nibbles that no variant has (30_encoding R86 c). -/
theorem decodeFamily8_eq_noneInstr_iff :
    decodeFamily8 w = .noneInstr ↔ (nOf w).val ∈ [0x8, 0x9, 0xA, 0xB, 0xC, 0xD, 0xF] := by
  have hlt := (nOf w).isLt
  rw [decodeFamily8]
  split
  case h_10 =>
    simp_all only [List.mem_cons, List.not_mem_nil, or_false, true_iff, imp_false]
    omega
  all_goals simp [*]

/-- Family E: the low bytes that no variant has (30_encoding R86 d). -/
theorem decodeFamilyE_eq_noneInstr_iff : decodeFamilyE w = .noneInstr ↔ (nnOf w).toNat ∉ [0x9E, 0xA1] := by
  rw [decodeFamilyE]
  split <;> simp_all

/-- Family F: the low bytes that no variant has (30_encoding R86 e). -/
theorem decodeFamilyF_eq_noneInstr_iff : decodeFamilyF w = .noneInstr ↔
    (nnOf w).toNat ∉ [0x07, 0x0A, 0x15, 0x18, 0x1E, 0x29, 0x33, 0x55, 0x65] := by
  rw [decodeFamilyF]
  split <;> simp_all

/-- Family 0 has no NONE (30_encoding R87). -/
theorem decodeFamily0_ne_noneInstr : decodeFamily0 w ≠ .noneInstr := by
  rw [decodeFamily0]
  split_ifs <;> simp

/-- ROUTINE's words are those of family 0 outside the three fixed words: its word encodes back, and decodes again. -/
theorem decodeWord_eq_routine_iff {nnn : Addr12} : decodeWord w = .routine nnn ↔
    opOf w = 0 ∧ w ≠ 0x0000 ∧ w ≠ 0x00E0 ∧ w ≠ 0x00EE ∧ nnn = nnnOf w := by
  constructor
  · intro h
    obtain ⟨hwf, hw⟩ := encodeOfDecodeIsIdentity w
    rw [h] at hwf hw
    obtain rfl : formA 0x0 nnn = w := hw (by simp)
    obtain ⟨h0, h1, h2⟩ := Instr.wellFormed_routine_iff.mp hwf
    exact ⟨opOf_formA 0x0 nnn (by decide), formA_ne h0, formA_ne h1, formA_ne h2, (nnnOf_formA 0x0 nnn (by decide)).symm⟩
  · rintro ⟨hop, hhalt, hclear, hret, rfl⟩
    have h := decodeOfEncodeIsIdentity _ (wellFormed_routine_nnnOf hop hhalt hclear hret)
    rwa [encode, formA_of_opOf hop] at h

/-- The first nibble of a word leaves one of the five sets of NONE, that of its family, or none. -/
theorem decodeWord_eq_noneInstr_iff : decodeWord w = .noneInstr ↔
    (opOf w = 0x5 ∧ (nOf w).val ≠ 0) ∨
    (opOf w = 0x8 ∧ (nOf w).val ∈ [0x8, 0x9, 0xA, 0xB, 0xC, 0xD, 0xF]) ∨
    (opOf w = 0x9 ∧ (nOf w).val ≠ 0) ∨
    (opOf w = 0xE ∧ (nnOf w).toNat ∉ [0x9E, 0xA1]) ∨
    (opOf w = 0xF ∧ (nnOf w).toNat ∉ [0x07, 0x0A, 0x15, 0x18, 0x1E, 0x29, 0x33, 0x55, 0x65]) := by
  rw [← decodeFamily8_eq_noneInstr_iff, ← decodeFamilyE_eq_noneInstr_iff, ← decodeFamilyF_eq_noneInstr_iff, decodeWord]
  have hlt := opOf_lt w
  split
  case h_1 h => simp [h, decodeFamily0_ne_noneInstr]
  case h_17 =>
    exfalso
    simp_all only [imp_false]
    omega
  all_goals simp [*]

/-- Settles O4. -/
theorem noneAndRoutineWordsAreTheirSets : Obligations.NoneAndRoutineWordsAreTheirSets :=
  ⟨fun _ => decodeWord_eq_noneInstr_iff, fun _ _ => decodeWord_eq_routine_iff, rfl⟩

/-- Settles O5: the procedure evaluated at each of the nine words. -/
theorem decodesTheDocumentsWords : Obligations.DecodesTheDocumentsWords := by
  unfold Obligations.DecodesTheDocumentsWords
  decide

end Sys2Proof
end

section
/-! PROOFS. What every instruction does when it answers a next state: it completes within the parts of the state that are its
own, or takes its one fault (spec/10_state.md R21 to R39, 60_exceptions R214 to R216); and what every step keeps. -/

namespace Sys2Proof.Machine

variable {s t : State} {i : Instr}

/-! ## Completing -/

/-- What an instruction that takes no fault leaves as it was: each part of the state but those with that instruction among
their writers (10_state R25 to R39). -/
structure State.Completes (s : State) (i : Instr) (t : State) : Prop where
  mem : (∀ x, i ≠ .bcp x) → (∀ x, i ≠ .dump x) → t.mem = s.mem
  fb : i ≠ .clear → (∀ x y n, i ≠ .draw x y n) → t.fb = s.fb
  stack : (∀ nnn, i ≠ .call nnn) → t.stack = s.stack
  sp : (∀ nnn, i ≠ .call nnn) → i ≠ .ret → t.sp = s.sp
  index : (∀ nnn, i ≠ .seti nnn) → (∀ x, i ≠ .addi x) → (∀ x, i ≠ .spri x) → t.i = s.i
  dt : (∀ x, i ≠ .setDelay x) → t.dt = s.dt
  st : (∀ x, i ≠ .setSound x) → t.st = s.st
  k : t.k = s.k
  ir : t.ir = s.ir
  irAddr : t.irAddr = s.irAddr
  params : t.params = s.params
  ticks : t.ticks = s.ticks
  faultCause : t.faultCause = s.faultCause
  faultAddr : t.faultAddr = s.faultAddr
  faulted : t.status = .faulted → s.status = .faulted
  canonical : s.mem.wf → t.mem.wf

/-- Any instruction may write registers, PC and the wait, take polls and drawn bytes, and end the run without a fault. -/
theorem State.Completes.of_registers {v : Vector Byte 16} {pc : Word} {wait : Option Reg} {status : Status}
    {polls : Feed (List HostEvent)} {draws : Feed Byte} (h : status = .faulted → s.status = .faulted) :
    s.Completes i { s with v := v, pc := pc, wait := wait, status := status, polls := polls, draws := draws } where
  mem _ _ := rfl
  fb _ _ := rfl
  stack _ := rfl
  sp _ _ := rfl
  index _ _ _ := rfl
  dt _ := rfl
  st _ := rfl
  k := rfl
  ir := rfl
  irAddr := rfl
  params := rfl
  ticks := rfl
  faultCause := rfl
  faultAddr := rfl
  faulted := h
  canonical := id

theorem State.Completes.skip (s : State) (c : Bool) : s.Completes i (s.skipIf c).retire := by
  cases c <;> exact .of_registers id

theorem State.Completes.arith (s : State) (x : Reg) (b : Byte) (f : Bool) :
    s.Completes i ((s.setReg x b).writeArithFlag f).retire := by
  rw [State.writeArithFlag_eq]
  exact .of_registers id

/-- A poll of GET_KEY holds, stores a key, or cancels the run. -/
theorem State.Completes.getKey (s : State) (x : Reg) (p : Poll) : s.Completes i (s.afterPoll.keyWaitPoll x p) := by
  cases p with
  | nothing | key k => exact .of_registers id
  | quit => exact .of_registers (fun h => nomatch h)

theorem State.Completes.call (s : State) (nnn : Addr12) (stack : Vector Word stackDepth) (sp : Byte) (a : Word) :
    s.Completes (.call nnn) ((s.setStack stack sp).setPc a) := by
  constructor <;> simp

theorem State.Completes.ret (s : State) (sp : Byte) (a : Word) :
    s.Completes .ret ((s.setStack s.stack sp).setPc a).retire := by
  constructor <;> simp

theorem State.Completes.drawing (s : State) (x y : Reg) (n : Count) (fb : FrameBuffer) (hit : Bool) :
    s.Completes (.draw x y n) ((s.setFb fb).writeCollision hit).retire := by
  rw [State.writeCollision_eq]
  constructor <;> simp

/-- A store of BCP or DUMP keeps the canonical form. -/
theorem State.Completes.store (hi : (∃ x, i = .bcp x) ∨ ∃ x, i = .dump x) {a : Nat} {bytes : List Byte} {m : Memory}
    (hm : s.mem.writeSpan a bytes = some m) : s.Completes i (s.setMem m).retire := by
  obtain ⟨x, rfl⟩ | ⟨x, rfl⟩ := hi <;> constructor
  case inl.canonical | inr.canonical => exact fun h => (Memory.writeSpan_spec s.mem m a bytes h hm).1
  all_goals simp

/-! ## Faulting -/

/-- The fault each instruction can take, its address, and the stack pointer it is taken at (60_exceptions R214, R215). -/
def mayRaise (s : State) (c : Cause) (a : Nat) : Instr → Prop
  | .call _ => c = .stackOverflow ∧ a = 0 ∧ s.sp = 12
  | .ret => c = .stackUnderflow ∧ a = 0 ∧ s.sp = 0
  | .bcp _ | .dump _ => c = .dataWrite ∧ a = max s.i.toNat 4096
  | .draw _ _ _ | .load _ => c = .dataRead ∧ a = max s.i.toNat 4096
  | _ => False

/-- Everything an instruction that answers a next state can do, over all instructions: it completes, or it takes its fault and
does nothing else (decision D10). -/
theorem exec_completes_or_faults (h : exec i s = .next t) :
    s.Completes i t ∨ ∃ c a, mayRaise s c a i ∧ t = s.raise c a := by
  cases i with
  | call nnn =>
    obtain ⟨_, rfl⟩ | ⟨hsp, rfl⟩ := execCall_next s h
    · exact .inl (.call ..)
    · exact .inr ⟨_, _, ⟨rfl, rfl, BitVec.eq_of_toNat_eq hsp⟩, rfl⟩
  | ret =>
    obtain ⟨_, _, rfl⟩ | ⟨hsp, rfl⟩ := execReturn_next s h
    · exact .inl (.ret ..)
    · exact .inr ⟨_, _, ⟨rfl, rfl, BitVec.eq_of_toNat_eq hsp⟩, rfl⟩
  | bcp x =>
    obtain ⟨m, hm, rfl⟩ | ⟨_, rfl⟩ := storeAtIndex_next s h
    · exact .inl (.store (.inl ⟨x, rfl⟩) hm)
    · exact .inr ⟨_, _, ⟨rfl, rfl⟩, rfl⟩
  | dump x =>
    obtain ⟨m, hm, rfl⟩ | ⟨_, rfl⟩ := storeAtIndex_next s h
    · exact .inl (.store (.inr ⟨x, rfl⟩) hm)
    · exact .inr ⟨_, _, ⟨rfl, rfl⟩, rfl⟩
  | load x =>
    obtain ⟨bytes, _, rfl⟩ | ⟨_, rfl⟩ := execLoad_next s h
    · exact .inl (.of_registers id)
    · exact .inr ⟨_, _, ⟨rfl, rfl⟩, rfl⟩
  | draw x y n =>
    obtain ⟨rows, _, rfl⟩ | ⟨_, rfl⟩ := execDraw_next s h
    · exact .inl (.drawing ..)
    · exact .inr ⟨_, _, ⟨rfl, rfl⟩, rfl⟩
  | halt => cases h; exact .inl (.of_registers (fun h => nomatch h))
  | getKey => cases h; exact .inl (.getKey ..)
  | addReg | subReg | subtract => cases h; exact .inl (.arith ..)
  | eqConst | neqConst | eqReg | neqReg | keyP | keyNp => cases h; exact .inl (.skip ..)
  | routine | goto | jump | setConst | addConst | setReg | orReg | andReg | xorReg | bshiftRght | bshiftLeft | rand
  | getDelay | noneInstr => cases h; exact .inl (.of_registers id)
  | clear | seti | addi | spri | setDelay | setSound =>
    cases h
    refine .inl ?_
    constructor <;> simp

/-- A fault taken by the instruction itself is its one fault and changes nothing but the fault latches. -/
theorem exec_raise_of_faulted (h : exec i s = .next t) (hs : s.status ≠ .faulted) (ht : t.status = .faulted) :
    ∃ c a, mayRaise s c a i ∧ t = s.raise c a :=
  (exec_completes_or_faults h).resolve_left fun hc => hs (hc.faulted ht)

/-! ## The frame of every instruction -/

/-- Settles O21. -/
theorem onlyCallAndReturnReachTheStack : Obligations.OnlyCallAndReturnReachTheStack := by
  intro i s t h hcall
  obtain hc | ⟨c, a, -, rfl⟩ := exec_completes_or_faults h
  · exact ⟨hc.stack hcall, hc.sp hcall⟩
  · exact ⟨rfl, fun _ => rfl⟩

/-- Settles O22. -/
theorem framebufferAndMemoryHaveTheirWriters : Obligations.FramebufferAndMemoryHaveTheirWriters := by
  intro i s t h
  obtain hc | ⟨c, a, -, rfl⟩ := exec_completes_or_faults h
  · exact ⟨hc.fb, fun hbcp hdump => ⟨hc.mem hbcp hdump, fun a => by rw [hc.mem hbcp hdump]⟩⟩
  · exact ⟨fun _ _ => rfl, fun _ _ => ⟨rfl, fun _ => rfl⟩⟩

/-- Settles O24. -/
theorem specialRegistersAreWrittenByTheirInstructions : Obligations.SpecialRegistersAreWrittenByTheirInstructions := by
  intro i s t h
  obtain hc | ⟨c, a, -, rfl⟩ := exec_completes_or_faults h
  · exact ⟨hc.index, hc.dt, hc.st, hc.k, hc.ir, hc.irAddr, hc.params, hc.ticks⟩
  · exact ⟨fun _ _ _ => rfl, fun _ => rfl, fun _ => rfl, rfl, rfl, rfl, rfl, rfl⟩

/-- Settles O25. -/
theorem faultsLeaveNoPartialEffect : Obligations.FaultsLeaveNoPartialEffect := by
  intro i s t h hs ht
  obtain ⟨c, a, -, rfl⟩ := exec_raise_of_faulted h hs ht
  rfl

/-- Settles O26: `mayRaise` is the table of the statement. -/
theorem eachInstructionHasOneFault : Obligations.EachInstructionHasOneFault := by
  intro i s t h hs ht
  obtain ⟨c, a, hraise, rfl⟩ := exec_raise_of_faulted h hs ht
  cases i <;> exact hraise

/-! ## What every step keeps -/

/-- Every instruction keeps memory canonical: a fault does not reach it. -/
theorem exec_keeps_memory_canonical (hm : s.mem.wf) (h : exec i s = .next t) : t.mem.wf := by
  obtain hc | ⟨c, a, -, rfl⟩ := exec_completes_or_faults h
  · exact hc.canonical hm
  · exact hm

theorem State.gap_mem (s : State) : s.gap.mem = s.mem := by rw [State.gap_eq]

/-- Settles O16: only the instruction a step executes can reach memory. -/
theorem stepKeepsMemoryCanonical : Obligations.StepKeepsMemoryCanonical := by
  intro s t hm hst
  obtain ⟨-, hcases⟩ := step_next s hst
  obtain ⟨-, -, rfl⟩ | ⟨-, -, -, rfl⟩ | ⟨-, -, -, rfl⟩ | ⟨-, u, hu, rfl⟩ | ⟨x, u, -, hu, rfl⟩ := hcases
  · exact hm
  · exact hm
  · exact hm
  · exact u.gap_mem ▸ exec_keeps_memory_canonical (s := s.fetched) hm hu
  · exact u.gap_mem ▸ exec_keeps_memory_canonical hm hu

/-- Outside a faulted state the latches agree exactly when they hold no fault. -/
theorem State.latchesAgree_iff_of_not_faulted (h : s.status ≠ .faulted) :
    s.LatchesAgree ↔ s.faultCause = .none ∧ s.faultAddr = 0 := by
  rw [State.LatchesAgree]
  split <;> simp_all

/-- The fault of an instruction agrees with the table of causes. -/
theorem latchesAgree_of_mayRaise {c : Cause} {a : Nat} (h : mayRaise s c a i) : (s.raise c a).LatchesAgree := by
  cases i with
  | call | ret =>
    obtain ⟨rfl, rfl, hsp⟩ := h
    exact ⟨rfl, by rw [State.raise_sp, hsp]; rfl, rfl⟩
  | bcp | dump | draw | load =>
    obtain ⟨rfl, rfl⟩ := h
    exact ⟨rfl, rfl⟩
  | _ => exact h.elim

/-- Every instruction of a run that goes on keeps the latches in agreement. -/
theorem exec_keeps_latchesAgree (hs : s.status = .running) (hl : s.LatchesAgree) (h : exec i s = .next t) :
    t.LatchesAgree := by
  have hnf : s.status ≠ .faulted := by simp [hs]
  obtain hc | ⟨c, a, hraise, rfl⟩ := exec_completes_or_faults h
  · rw [State.latchesAgree_iff_of_not_faulted hnf] at hl
    rwa [State.latchesAgree_iff_of_not_faulted (mt hc.faulted hnf), hc.faultCause, hc.faultAddr]
  · exact latchesAgree_of_mayRaise hraise

/-- The gap does not reach the latches nor what they are compared with. -/
theorem State.LatchesAgree.gap (h : s.LatchesAgree) : s.gap.LatchesAgree := by
  rw [State.gap_eq]
  exact h

/-- Settles O17: a step quits, cannot fetch, or executes an instruction. -/
theorem stepKeepsLatchesInAgreement : Obligations.StepKeepsLatchesInAgreement := by
  intro s t hl hst
  obtain ⟨hr, hcases⟩ := step_next s hst
  obtain ⟨-, -, rfl⟩ | ⟨-, -, hpc, rfl⟩ | ⟨-, -, hpc, rfl⟩ | ⟨hc, u, hu, rfl⟩ | ⟨x, u, hw, hu, rfl⟩ := hcases
  · have hnone := (State.latchesAgree_iff_of_not_faulted (by simp [hr])).mp hl
    exact (State.latchesAgree_iff_of_not_faulted (by simp)).mpr hnone
  · exact ⟨rfl, hpc, rfl⟩
  · exact ⟨rfl, hpc, rfl⟩
  · exact (exec_keeps_latchesAgree (s := s.fetched) hr hl hu).gap
  · exact (exec_keeps_latchesAgree hr hl hu).gap

/-- A tick leaves a timer or takes 1 from one greater than 0. -/
theorem tickTimer_counts_down (b : Byte) : tickTimer b = b ∨ 0 < b.toNat ∧ (tickTimer b).toNat = b.toNat - 1 := by
  by_cases hb : b = 0
  · exact .inl (by rw [tickTimer, if_pos hb, hb])
  · exact .inr ⟨by bv_omega, tickTimer_toNat b⟩

/-- The gap ticks the delay timer or leaves it. -/
theorem State.gap_dt (s : State) : s.gap.dt = s.dt ∨ s.gap.dt = tickTimer s.dt := by
  rw [State.gap]
  split
  · cases hT : s.ticks.head Config.gapTicks <;> simp
  · exact .inl rfl

theorem State.gap_dt_counts_down (s : State) : s.gap.dt = s.dt ∨ 0 < s.dt.toNat ∧ s.gap.dt.toNat = s.dt.toNat - 1 := by
  obtain h | h := s.gap_dt
  · exact .inl h
  · exact h ▸ tickTimer_counts_down s.dt

/-- No instruction but SET_DELAY reaches DT. -/
theorem exec_keeps_dt (h : exec i s = .next t) (hi : ∀ x, i ≠ .setDelay x) : t.dt = s.dt := by
  obtain ⟨-, hdt, -⟩ := specialRegistersAreWrittenByTheirInstructions i s t h
  exact hdt hi

/-- Settles O23: an instruction other than SET_DELAY leaves DT, and the gap ticks it at most once. -/
theorem delayTimerOnlyCountsDown : Obligations.DelayTimerOnlyCountsDown := by
  intro s t hst hi
  obtain ⟨-, hcases⟩ := step_next s hst
  obtain ⟨-, -, rfl⟩ | ⟨-, -, -, rfl⟩ | ⟨-, -, -, rfl⟩ | ⟨-, u, hu, rfl⟩ | ⟨x, u, -, hu, rfl⟩ := hcases
  · exact .inl rfl
  · exact .inl rfl
  · exact .inl rfl
  · have hdt : u.dt = s.dt := exec_keeps_dt (s := s.fetched) hu hi
    exact hdt ▸ u.gap_dt_counts_down
  · have hdt : u.dt = s.dt := exec_keeps_dt hu (by simp)
    exact hdt ▸ u.gap_dt_counts_down

end Sys2Proof.Machine
end

section
/-! PROOFS. The keyboard: what a poll point yields, the key skips, and the poll of GET_KEY (spec/36_cycle_and_blocks.md R112 to
R114, 45_keyboard_timers.md R200 to R202). -/

namespace Sys2Proof.Machine

variable (s : State) (x : Reg)

/-! ## One poll point (R112, R123) -/

/-- A quit delivered anywhere at the poll point wins. -/
theorem pollOf_of_quit_mem {es : List HostEvent} (h : HostEvent.quit ∈ es) : pollOf es = .quit := by
  induction es with
  | nil => cases h
  | cons e es ih => cases e <;> simp_all [pollOf]

/-- Events at the end that yield nothing by themselves change nothing. -/
theorem pollOf_append_of_nothing (es : List HostEvent) {fs : List HostEvent} (h : pollOf fs = .nothing) :
    pollOf (es ++ fs) = pollOf es := by
  induction es with
  | nil => exact h
  | cons e es ih => cases e <;> simp [pollOf, ih]

/-- Without a quit, a recognised key-down at the end counts. -/
theorem pollOf_append_keyDown {es : List HostEvent} {k : HostKey} {c : Key} (hq : HostEvent.quit ∉ es)
    (hk : keyCode k = some c) : pollOf (es ++ [.keyDown k]) = .key c := by
  induction es with
  | nil => simp [pollOf, hk]
  | cons e es ih =>
    have htail : pollOf (es ++ [.keyDown k]) = .key c := ih fun h => hq (List.mem_cons_of_mem e h)
    cases e with
    | quit => exact absurd List.mem_cons_self hq
    | keyDown | keyUp | stepSignal => simp [pollOf, htail]

/-- The poll yields nothing when there is neither a quit nor a recognised key-down, and only then. -/
theorem pollOf_eq_nothing_iff (es : List HostEvent) : pollOf es = .nothing ↔
    HostEvent.quit ∉ es ∧ ∀ k, HostEvent.keyDown k ∈ es → keyCode k = none := by
  induction es with
  | nil => simp [pollOf]
  | cons e es ih =>
    cases e with
    | quit => simp [pollOf]
    | keyUp | stepSignal => simp [pollOf, ih]
    | keyDown k =>
      have hcons : pollOf (.keyDown k :: es) = .nothing ↔ pollOf es = .nothing ∧ keyCode k = none := by
        cases hes : pollOf es <;> cases hk : keyCode k <;> simp [pollOf, hes, hk]
      rw [hcons, ih]
      simp only [List.mem_cons, reduceCtorEq, false_or, HostEvent.keyDown.injEq, forall_eq_or_imp]
      tauto

/-- Settles O60. -/
theorem pollTakesQuitThenTheLastKey : Obligations.PollTakesQuitThenTheLastKey := fun es =>
  ⟨pollOf_of_quit_mem, fun _ _ hq hk => pollOf_append_keyDown hq hk, fun _ => pollOf_append_of_nothing es rfl,
    pollOf_append_of_nothing es rfl, pollOf_append_of_nothing es rfl, pollOf_eq_nothing_iff es⟩

/-! ## The key skips (R113, R200, R201) -/

/-- The latch is compared with the full 8-bit value (decision D25). -/
theorem State.isPressed_iff (code : Byte) : s.isPressed code = true ↔ ∃ k, s.k = some k ∧ k.val = code.toNat := by
  unfold State.isPressed
  cases s.k <;> simp

/-- KEY_P skips on the latch. -/
theorem exec_keyP : exec (.keyP x) s =
    .next { s with pc := if s.isPressed (s.reg x) then s.pc + 4 else s.pc + 2 } :=
  congrArg Host.Outcome.next (s.skipIf_retire_of_iff Iff.rfl)

/-- KEY_NP is the opposite test. -/
theorem exec_keyNp : exec (.keyNp x) s =
    .next { s with pc := if s.isPressed (s.reg x) then s.pc + 2 else s.pc + 4 } := by
  rw [← ite_not]
  exact congrArg Host.Outcome.next (s.skipIf_retire_of_iff (by simp))

/-- Settles O56. -/
theorem keySkipsTestTheLatch : Obligations.KeySkipsTestTheLatch := by
  intro s x pressed hp
  rw [← State.isPressed_iff] at hp
  rw [exec_keyP, exec_keyNp, hp]
  exact ⟨fun h => by simp [h], fun h => by simp [h]⟩

/-! ## The poll of GET_KEY (R114, R202) -/

/-- GET_KEY is one poll, whatever K holds (decision D19). -/
theorem exec_getKey : exec (.getKey x) s = .next (s.afterPoll.keyWaitPoll x s.nextPoll) := rfl

/-- A poll that delivers nothing begins the wait, or holds in it. -/
theorem exec_getKey_of_nothing (h : s.nextPoll = .nothing) :
    exec (.getKey x) s = .next { s with wait := some x, polls := s.polls.advance } := by
  rw [exec_getKey, h]
  rfl

/-- A poll that delivers a key stores its code, ends the wait and retires. -/
theorem exec_getKey_of_key {k : Key} (h : s.nextPoll = .key k) :
    exec (.getKey x) s = .next ((s.afterPoll.setReg x (byteOfKey k)).setWait none).retire := by
  rw [exec_getKey, h]
  rfl

/-- A poll that delivers quit ends the run. -/
theorem exec_getKey_of_quit (h : s.nextPoll = .quit) :
    exec (.getKey x) s = .next { s with status := .cancelled, wait := none, polls := s.polls.advance } := by
  rw [exec_getKey, h]
  rfl

/-- A key code fits a register. -/
theorem byteOfKey_toNat (k : Key) : (byteOfKey k).toNat = k.val := by
  rw [byteOfKey, BitVec.toNat_ofNat]
  omega

/-- Settles O57. -/
theorem getKeyTakesOnePoll : Obligations.GetKeyTakesOnePoll := by
  refine fun s x => ⟨fun k hk => ⟨_, exec_getKey_of_key s x hk, ?_, fun y hy => ?_, rfl⟩,
    exec_getKey_of_nothing s x, exec_getKey_of_quit s x⟩
  · rw [State.retire_reg, State.setWait_reg, State.setReg_reg_same, byteOfKey_toNat]
  · rw [State.retire_reg, State.setWait_reg, State.setReg_reg_of_ne _ hy, State.afterPoll_reg]

end Sys2Proof.Machine
end

section
/-! PROOFS. The cycle: which of its ends a step takes, the poll of a key wait, the gap, and that a running core always steps
(spec/36_cycle_and_blocks.md R106, R107, R114, R116; 60_exceptions.md R217, R220, R222). -/

namespace Sys2Proof.Machine

variable {s : State}

/-! ## The step by its cases -/

/-- A key wait in progress takes its poll. -/
theorem step_of_wait (hr : s.status = .running) {x : Reg} (hw : s.wait = some x) :
    step s = closeCycle (exec (.getKey x) s) := by
  simp only [step, advance, hr, hw]

/-- Outside a key wait a cycle runs. -/
theorem step_of_no_wait (hr : s.status = .running) (hw : s.wait = none) : step s = runCycle s := by
  simp only [step, advance, hr, hw]

/-- A quit at the start-of-cycle poll (R122). -/
theorem step_of_quit (hr : s.status = .running) (hw : s.wait = none) (hq : s.nextPoll = .quit) :
    step s = .next (s.beginCycle.setStatus .cancelled) := by
  rw [step_of_no_wait hr hw, runCycle, hq]

/-- No quit: the cycle goes on to its program-counter check with what the poll has latched. -/
theorem step_of_no_quit (hr : s.status = .running) (hw : s.wait = none) (hq : s.nextPoll ≠ .quit) :
    step s = runFetched (s.beginCycle.setK (latchOf s.nextPoll)) := by
  rw [step_of_no_wait hr hw, runCycle]
  cases hp : s.nextPoll with
  | nothing | key k => rfl
  | quit => exact absurd hp hq

/-- A PC of 4096 or more (60_exceptions R211). -/
theorem step_of_pc_beyond (hr : s.status = .running) (hw : s.wait = none) (hq : s.nextPoll ≠ .quit)
    (hpc : memSize ≤ s.pc.toNat) :
    step s = .next ((s.beginCycle.setK (latchOf s.nextPoll)).raise .pcRange s.pc.toNat) := by
  rw [step_of_no_quit hr hw hq, runFetched, State.fetch_beyond (s.beginCycle.setK (latchOf s.nextPoll)) hpc]
  rfl

/-- A PC of 4095, whose second byte is out of range (60_exceptions R211). -/
theorem step_of_pc_last (hr : s.status = .running) (hw : s.wait = none) (hq : s.nextPoll ≠ .quit)
    (hpc : s.pc.toNat = 4095) :
    step s = .next ((s.beginCycle.setK (latchOf s.nextPoll)).raise .fetchRange memSize) := by
  rw [step_of_no_quit hr hw hq, runFetched, State.fetch_last (s.beginCycle.setK (latchOf s.nextPoll)) hpc]

/-! ## The obligations -/

/-- Every word decodes to a well-formed instruction. -/
theorem decodeWord_wellFormed (w : Word) : (decodeWord w).WellFormed := (encodeOfDecodeIsIdentity w).1

/-- Settles O7: the decoder reads the word at PC, and `step_fetched` runs it. -/
theorem stepRunsTheDecodedInstruction : Obligations.StepRunsTheDecodedInstruction := by
  intro s i rest hc hi
  obtain ⟨rfl, -⟩ : decodeWord s.wordAtPc = i ∧ [] = rest := by simpa [decodeBytes, State.wordAtPc] using hi
  exact ⟨decodeWord_wellFormed _, step_fetched s hc⟩

/-- Settles O8. -/
theorem unfetchablePcFaults : Obligations.UnfetchablePcFaults := fun _ hr hw hq =>
  ⟨step_of_pc_beyond hr hw hq, step_of_pc_last hr hw hq⟩

/-- Settles O9: a quit ends the run, so no gap follows it. -/
theorem quitCancelsTheRun : Obligations.QuitCancelsTheRun := by
  refine fun s hr hq => ⟨fun hw => step_of_quit hr hw hq, fun hw => ?_⟩
  obtain ⟨x, hx⟩ := Option.ne_none_iff_exists'.mp hw
  rw [step_of_wait hr hx, exec_getKey_of_quit s x hq, closeCycle, State.gap_none _ (.inl (by simp))]

/-- Settles O10: `advance` has a meaning for Running only. -/
theorem noStepAfterTheRunEnds : Obligations.NoStepAfterTheRunEnds := by
  intro s hs
  rw [step, advance]
  cases hst : s.status with
  | running => exact absurd hst hs
  | halted | faulted | cancelled => rfl

/-- Settles O11: a poll that holds leaves the wait in progress, so no gap follows it. -/
theorem keyWaitStepsArePolls : Obligations.KeyWaitStepsArePolls := by
  refine fun s x hr hw => ⟨fun hp => ?_, fun k hk => ?_⟩
  · rw [step_of_wait hr hw, exec_getKey_of_nothing s x hp, closeCycle, State.gap_none _ (.inr (by simp)), ← hw]
  · refine ⟨_, by rw [step_of_wait hr hw, exec_getKey_of_key s x hk, closeCycle], ?_, fun y hy => ?_, rfl⟩
    · rw [State.retire_reg, State.setWait_reg, State.setReg_reg_same]
    · rw [State.retire_reg, State.setWait_reg, State.setReg_reg_of_ne _ hy, State.afterPoll_reg]

/-- A timer after a gap that ticks or does not. -/
theorem tickTimer_of_gap (tick : Bool) (b : Byte) :
    (if tick then tickTimer b else b) = if tick = true ∧ 0 < b.toNat then b - 1 else b := by
  cases tick with
  | false => simp
  | true =>
    by_cases hb : b = 0
    · subst hb; rfl
    · rw [if_pos rfl, tickTimer, if_neg hb, if_pos ⟨rfl, by bv_omega⟩]

/-- Settles O12. -/
theorem gapTicksAtMostOnce : Obligations.GapTicksAtMostOnce := by
  refine fun s => ⟨fun hr hw => ?_, s.gap_none⟩
  rw [State.gap, if_pos ⟨hr, hw⟩, ← tickTimer_of_gap, ← tickTimer_of_gap]

/-- Every instruction answers a next state while SP is at most 12: the stack is refused above it only (93 section 1). -/
theorem exec_answers (i : Instr) (hsp : s.SpBounded) : ∃ t, exec i s = .next t := by
  cases i with
  | call nnn =>
    obtain hlt | heq := Nat.lt_or_eq_of_le hsp
    · exact ⟨_, by rw [exec, execCall, State.push_ok s _ hlt]⟩
    · exact ⟨_, by rw [exec, execCall, State.push_full s _ heq]⟩
  | ret =>
    obtain h0 | hpos := Nat.eq_zero_or_pos s.sp.toNat
    · exact ⟨_, by rw [exec, execReturn, State.pop_empty s h0]⟩
    · exact ⟨_, by rw [exec, execReturn, State.pop_ok s hpos (by simp only [State.SpBounded] at hsp; omega)]⟩
  | bcp | dump =>
    obtain ⟨_, _, h⟩ | ⟨_, h⟩ := s.storeAtIndex_cases _ <;> exact ⟨_, h⟩
  | load x => rw [exec, execLoad]; split <;> exact ⟨_, rfl⟩
  | draw x y n => rw [exec, execDraw]; split <;> exact ⟨_, rfl⟩
  | _ => exact ⟨_, rfl⟩

/-- Settles O18: the poll of a key wait, the quit and the two unfetchable ranges of PC answer a next state, and else the step is
an instruction's. -/
theorem runningCoreAlwaysSteps : Obligations.RunningCoreAlwaysSteps := by
  intro s hsp hr
  cases hw : s.wait with
  | some x => exact ⟨_, by rw [step_of_wait hr hw, exec_getKey, closeCycle]⟩
  | none =>
    by_cases hq : s.nextPoll = .quit
    · exact ⟨_, step_of_quit hr hw hq⟩
    by_cases hfits : s.pc.toNat ≤ 4094
    · obtain ⟨u, hu⟩ := exec_answers (s := s.fetched) (decodeWord s.wordAtPc) hsp
      exact ⟨u.gap, by rw [step_fetched s ⟨hr, hw, hq, hfits⟩, hu, closeCycle]⟩
    · obtain hlast | hbeyond : s.pc.toNat = 4095 ∨ memSize ≤ s.pc.toNat := by simp only [memSize]; omega
      · exact ⟨_, step_of_pc_last hr hw hq hlast⟩
      · exact ⟨_, step_of_pc_beyond hr hw hq hbeyond⟩

/-! ## A word placed where the machine fetches -/

theorem bytesOfWord_length (w : Word) : (bytesOfWord w).length = 2 := rfl

/-- The two bytes of a word make it up again (20_memory R52). -/
theorem wordOfBytes_bytesOfWord (w : Word) :
    wordOfBytes ((bytesOfWord w).getD 0 0) ((bytesOfWord w).getD 1 0) = w := by
  have := w.isLt
  apply BitVec.eq_of_toNat_eq
  simp only [wordOfBytes_toNat, bytesOfWord, List.getD_cons_zero, List.getD_cons_succ, BitVec.extractLsb'_toNat,
    Nat.shiftRight_eq_div_pow]
  omega

/-- What each address reads as once a word is placed at a PC that can be fetched from. -/
theorem State.placeWord_byteAt (w : Word) (hm : s.mem.wf) (hpc : s.pc.toNat ≤ 4094) (a : Nat) :
    (s.placeWord w).mem.byteAt a =
      if s.pc.toNat ≤ a ∧ a < s.pc.toNat + 2 then (bytesOfWord w).getD (a - s.pc.toNat) 0 else s.mem.byteAt a :=
  Memory.byteAt_fill _ _ _ hm (by rw [bytesOfWord_length, memSize]; omega) a

/-- The word placed is the word at PC. -/
theorem State.placeWord_wordAtPc (w : Word) (hm : s.mem.wf) (hpc : s.pc.toNat ≤ 4094) :
    (s.placeWord w).wordAtPc = w := by
  have hkeep : (s.placeWord w).pc = s.pc := rfl
  rw [State.wordAtPc, hkeep, State.placeWord_byteAt w hm hpc, State.placeWord_byteAt w hm hpc, if_pos (by omega),
    if_pos (by omega), Nat.sub_self, Nat.add_sub_cancel_left, wordOfBytes_bytesOfWord]

/-- A table word of 16 bits is the word itself. -/
theorem tableWord_of_lt {w : Nat} (h : w < 65536) : tableWord 16 w = BitVec.ofNat 16 w := by
  rw [tableWord, Nat.mod_eq_of_lt (by omega)]

/-- Settles O13: the placed poll delivers nothing, so the step is that of the placed word in the fetched state. -/
theorem withFetchWordRunsThatWord : Obligations.WithFetchWordRunsThatWord := by
  intro s w hm hr hw hpc hlt
  rw [State.withFetchWord, tableWord_of_lt hlt]
  have hnothing : (s.placeWord (BitVec.ofNat 16 w)).nextPoll = .nothing := rfl
  have hc : (s.placeWord (BitVec.ofNat 16 w)).CanFetch := ⟨hr, hw, by simp [hnothing], hpc⟩
  have hword := State.placeWord_wordAtPc (BitVec.ofNat 16 w) hm hpc
  refine ⟨(s.placeWord (BitVec.ofNat 16 w)).fetched, ?_, hword, Memory.fill_wf _ _ _ hm, fun a h0 h1 => ?_, rfl⟩
  · rw [step_fetched _ hc, hword]
  · exact (State.placeWord_byteAt _ hm hpc a).trans (if_neg (by omega))

end Sys2Proof.Machine
end

section
/-! PROOFS. Memory as a whole: a canonical memory is determined by what it reads as, and the layout after boot
(spec/20_memory.md R50, 10_state.md R40). -/

namespace Sys2Proof.Machine

/-! ## Canonical memories -/

section Cons

variable {m : Memory} {a b : Nat} {x : Byte}

theorem Memory.byteAt_cons_self : Memory.byteAt ((a, x) :: m) a = x := if_pos rfl

theorem Memory.byteAt_cons_of_ne (h : b ≠ a) : Memory.byteAt ((a, x) :: m) b = m.byteAt b := if_neg h

/-- A canonical memory's first cell is below the others, holds a byte that an unlisted address does not read as, and has a
canonical rest. -/
theorem Memory.wf_cons (h : Memory.wf ((a, x) :: m)) : (∀ c ∈ m, a < c.1) ∧ x ≠ Memory.unlisted a ∧ m.wf := by
  obtain ⟨hsorted, hlisted⟩ := h
  obtain ⟨hbelow, hrest⟩ := List.pairwise_cons.mp hsorted
  exact ⟨hbelow, (hlisted _ List.mem_cons_self).2, hrest, fun c hc => hlisted c (List.mem_cons_of_mem _ hc)⟩

/-- An address that does not read as unlisted is not below the first cell. -/
theorem Memory.head_le_of_byteAt_ne (h : Memory.wf ((a, x) :: m))
    (hb : Memory.byteAt ((a, x) :: m) b ≠ Memory.unlisted b) : a ≤ b := by
  by_contra hlt
  refine hb (Memory.byteAt_below _ _ fun c hc => ?_)
  obtain rfl | hc := List.mem_cons.mp hc
  · omega
  · exact Nat.lt_trans (by omega) ((Memory.wf_cons h).1 c hc)

end Cons

/-- Settles O19, by induction on both lists: neither first cell is below the other, since it reads as listed in both. -/
theorem canonicalMemoriesThatReadAlikeAreEqual : Obligations.CanonicalMemoriesThatReadAlikeAreEqual := by
  intro m
  induction m with
  | nil =>
    intro m' _ hm' halike
    match m' with
    | [] => rfl
    | (b, y) :: m' =>
      obtain ⟨-, hy, -⟩ := Memory.wf_cons hm'
      exact absurd ((halike b).trans Memory.byteAt_cons_self).symm hy
  | cons c m ih =>
    obtain ⟨a, x⟩ := c
    intro m' hm hm' halike
    obtain ⟨hbelow, hx, hrest⟩ := Memory.wf_cons hm
    match m' with
    | [] => exact absurd (Memory.byteAt_cons_self.symm.trans (halike a)) hx
    | (b, y) :: m' =>
      obtain ⟨hbelow', hy, hrest'⟩ := Memory.wf_cons hm'
      have hba : b ≤ a := Memory.head_le_of_byteAt_ne hm' (by rwa [← halike, Memory.byteAt_cons_self])
      have hab : a ≤ b := Memory.head_le_of_byteAt_ne hm (by rwa [halike, Memory.byteAt_cons_self])
      obtain rfl : a = b := Nat.le_antisymm hab hba
      obtain rfl : x = y := by simpa only [Memory.byteAt_cons_self] using halike a
      rw [ih m' hrest hrest' fun d => ?_]
      by_cases hd : d = a
      · rw [hd, Memory.byteAt_below m a hbelow, Memory.byteAt_below m' a hbelow']
      · simpa only [Memory.byteAt_cons_of_ne hd] using halike d

/-! ## After boot -/

variable (font : Vector Byte 80) (image : List Byte)

/-- The font table keeps memory canonical. -/
theorem State.loadFontTable_reset_wf : (State.reset.loadFontTable font).mem.wf :=
  Memory.fill_wf _ _ _ Memory.reset_wf

/-- What each address reads as once the font table is loaded after reset: the font's 80 bytes from 0 on, then zeros. -/
theorem State.loadFontTable_reset_byteAt (a : Nat) :
    (State.reset.loadFontTable font).mem.byteAt a = if h : a < 80 then font[a] else 0 := by
  have hlen : font.toList.length = 80 := by simp
  rw [State.loadFontTable, State.setMem_mem,
    Memory.byteAt_fill _ _ _ Memory.reset_wf (by rw [hlen, memSize]; omega), hlen]
  by_cases ha : a < 80 <;> simp [ha]

/-- What each address reads as after boot: the image from 512 on, at most 3584 bytes of it, and elsewhere the font and
zeros (10_state R40). -/
theorem State.boot_byteAt (a : Nat) : (State.boot font image).mem.byteAt a =
    if 512 ≤ a ∧ a < 512 + min image.length 3584 then image.getD (a - 512) 0
    else if h : a < 80 then font[a] else 0 := by
  rw [State.boot, State.loadProgram_byteAt _ _ (State.loadFontTable_reset_wf font), State.loadFontTable_reset_byteAt]

/-- Settles O50: the four ranges are cases of `boot_byteAt`. -/
theorem bootLaysOutMemory : Obligations.BootLaysOutMemory := by
  intro font image
  refine ⟨fun a ha => ?_, fun a h1 h2 => ?_, fun k hk => ?_, fun a ha => ?_,
    Memory.fill_wf _ _ _ (State.loadFontTable_reset_wf font), rfl⟩
  · rw [State.boot_byteAt, if_neg (by omega), dif_pos ha]
  · rw [State.boot_byteAt, if_neg (by omega), dif_neg (by omega)]
  · rw [State.boot_byteAt, if_pos (by omega), Nat.add_sub_cancel_left]
  · rw [State.boot_byteAt, if_neg (by omega), dif_neg (by omega)]

end Sys2Proof.Machine
end

section
/-! PROOFS. Control flow: the stop, the no-operations, CALL and RETURN, and where each instruction leaves PC
(spec/40_control_flow.md R130 to R136, 10_state.md R24). -/

namespace Sys2Proof.Machine

variable {s : State}

/-! ## Stop and no-operations -/

theorem exec_halt (s : State) : exec .halt s = .next { s with status := .halted, pc := s.pc + 2 } := rfl

theorem exec_routine (s : State) (nnn : Addr12) : exec (.routine nnn) s = .next { s with pc := s.pc + 2 } := rfl

theorem exec_noneInstr (s : State) : exec .noneInstr s = .next { s with pc := s.pc + 2 } := rfl

/-- Settles O28. -/
theorem haltStopsTheRun : Obligations.HaltStopsTheRun := exec_halt

/-- Settles O29. -/
theorem routineAndNoneOnlyRetire : Obligations.RoutineAndNoneOnlyRetire :=
  fun s => ⟨exec_routine s, exec_noneInstr s⟩

/-! ## CALL and RETURN -/

/-- CALL below the depth pushes its own address (decision D2). -/
theorem exec_call_below (nnn : Addr12) (h : s.sp.toNat < stackDepth) : exec (.call nnn) s =
    .next ((s.setStack (s.stack.set s.sp.toNat s.pc h) (s.sp + 1)).setPc (wordOfAddr nnn)) := by
  rw [exec, execCall, State.push_ok s _ h]

/-- RETURN with entries on the stack retires past the address it pops (decision D2). -/
theorem exec_ret_nonempty (h0 : 0 < s.sp.toNat) (h : s.sp.toNat - 1 < stackDepth) : exec .ret s =
    .next ((s.setStack s.stack (s.sp - 1)).setPc s.stack[s.sp.toNat - 1]).retire := by
  rw [exec, execReturn, State.pop_ok s h0 h]

/-- A push below the depth does not wrap SP. -/
theorem sp_succ_toNat {sp : Byte} (h : sp.toNat < stackDepth) : (sp + 1).toNat = sp.toNat + 1 := by
  simp only [stackDepth] at h
  bv_omega

/-- Settles O31. -/
theorem callPushesItsOwnAddress : Obligations.CallPushesItsOwnAddress := by
  refine fun s nnn h => ⟨_, exec_call_below nnn h, ?_, sp_succ_toNat h, wordOfAddr_toNat nnn, fun k hk hne => ?_, rfl⟩
  · rw [State.setPc_stack, State.setStack_stack, Vector.getElem_set_self]
  · simp only [State.setPc_stack, State.setStack_stack, Vector.getElem_set_ne _ _ (Ne.symm hne)]

/-- Settles O32. -/
theorem returnLandsPastTheCall : Obligations.ReturnLandsPastTheCall := by
  refine fun s h0 h => ⟨_, exec_ret_nonempty h0 (by omega), ?_, rfl, rfl⟩
  rw [State.retire_sp, State.setPc_sp, State.setStack_sp]
  bv_omega

/-- Settles O33: the three ranges are those of push and pop. -/
theorem stackLimitsFault : Obligations.StackLimitsFault := by
  refine fun s nnn => ⟨fun h => ?_, fun h => ?_, fun h => ⟨?_, ?_⟩⟩
  · rw [exec, execCall, State.push_full s _ h]; rfl
  · rw [exec, execReturn, State.pop_empty s h]; rfl
  · rw [exec, execCall, State.push_beyond s _ h]
  · rw [exec, execReturn, State.pop_beyond s h]

/-- Settles O34: RETURN pops the entry that CALL pushed, its own address, and PC goes on from there. -/
theorem returnUndoesCall : Obligations.ReturnUndoesCall := by
  intro s nnn h
  have hsp := sp_succ_toNat h
  refine ⟨_, _, exec_call_below nnn h, exec_ret_nonempty ?_ ?_, ?_, fun k hk hlive => ?_⟩
  · rw [State.setPc_sp, State.setStack_sp, hsp]
    omega
  · rw [State.setPc_sp, State.setStack_sp, hsp]
    omega
  · simp only [State.retire, State.setPc, State.setStack, hsp, Nat.add_sub_cancel, Vector.getElem_set_self,
      BitVec.add_sub_cancel]
  · simp [Vector.getElem_set_ne _ _ (Nat.ne_of_gt hlive)]

/-! ## PC after each instruction -/

theorem State.writeArithFlag_pc (s : State) (f : Bool) : (s.writeArithFlag f).pc = s.pc := by
  rw [State.writeArithFlag_eq]

theorem State.writeCollision_pc (s : State) (hit : Bool) : (s.writeCollision hit).pc = s.pc := by
  rw [State.writeCollision_eq]

/-- An arithmetic form retires past its result and its flag write. -/
theorem State.arith_retire_pc (s : State) (x : Reg) (b : Byte) (f : Bool) :
    ((s.setReg x b).writeArithFlag f).retire.pc = s.pc + 2 := by
  rw [State.retire_pc, State.writeArithFlag_pc, State.setReg_pc]

/-- BCP and DUMP retire unless they fault. -/
theorem storeAtIndex_pc {t : State} {bytes : List Byte} (h : s.storeAtIndex bytes = .next t) (hf : t.status ≠ .faulted) :
    t.pc = s.pc + 2 := by
  obtain ⟨m, -, rfl⟩ | ⟨-, rfl⟩ := storeAtIndex_next s h
  · rfl
  · exact absurd rfl hf

/-- A poll of GET_KEY that does not end the run stays at the GET_KEY or retires. -/
theorem keyWaitPoll_pc {x : Reg} {p : Poll} (h : (s.keyWaitPoll x p).status ≠ .cancelled) :
    (s.keyWaitPoll x p).pc = if p = .nothing then s.pc else s.pc + 2 := by
  cases p with
  | nothing | key k => rfl
  | quit => exact absurd rfl h

/-- Settles O27: the transfers, the skips and GET_KEY set PC each in its own way, and everything else that takes no fault
retires. -/
theorem pcAfterEachInstruction : Obligations.PcAfterEachInstruction := by
  intro i s t h _ hf hq
  cases i with
  | goto nnn => cases h; rfl
  | jump nnn => cases h; exact wordOfByte_add_wordOfAddr_toNat (s.reg 0) nnn
  | call nnn =>
    obtain ⟨_, rfl⟩ | ⟨-, rfl⟩ := execCall_next s h
    · rfl
    · exact absurd rfl hf
  | ret =>
    obtain ⟨_, _, rfl⟩ | ⟨-, rfl⟩ := execReturn_next s h
    · exact fun _ => rfl
    · exact absurd rfl hf
  | eqConst => rw [exec_eqConst] at h; cases h; rfl
  | neqConst => rw [exec_neqConst] at h; cases h; exact ite_not ..
  | eqReg => rw [exec_eqReg] at h; cases h; rfl
  | neqReg => rw [exec_neqReg] at h; cases h; exact ite_not ..
  | keyP => rw [exec_keyP] at h; cases h; rfl
  | keyNp => rw [exec_keyNp] at h; cases h; rfl
  | getKey => cases h; exact keyWaitPoll_pc hq
  | addReg | subReg | subtract => cases h; exact s.arith_retire_pc ..
  | bcp | dump => exact storeAtIndex_pc h hf
  | load x =>
    obtain ⟨bytes, -, rfl⟩ | ⟨-, rfl⟩ := execLoad_next s h
    · rfl
    · exact absurd rfl hf
  | draw x y n =>
    obtain ⟨rows, -, rfl⟩ | ⟨-, rfl⟩ := execDraw_next s h
    · rw [State.retire_pc, State.writeCollision_pc, State.setFb_pc]
    · exact absurd rfl hf
  | halt | clear | routine | setConst | addConst | setReg | orReg | andReg | xorReg | bshiftRght | bshiftLeft | seti
  | rand | getDelay | setDelay | setSound | addi | spri | noneInstr => cases h; rfl

end Sys2Proof.Machine
end

section
/-! PROOFS. Register arithmetic, logic, shifts and RAND (spec/42_alu.md R160 to R176). -/

namespace Sys2Proof.Machine

/-! ## One register written, then retire -/

/-- What a register write and the retire after it leave: the register, every other one, and PC. -/
theorem State.setReg_retire_spec (s : State) (x : Reg) (b : Byte) :
    (s.setReg x b).retire.reg x = b ∧ (∀ y, y ≠ x → (s.setReg x b).retire.reg y = s.reg y) ∧
      (s.setReg x b).retire = { s with v := (s.setReg x b).retire.v, pc := s.pc + 2 } :=
  ⟨s.setReg_reg_same x b, fun _ hy => State.setReg_reg_of_ne b hy, rfl⟩

/-- Settles O36. -/
theorem immediateFormsWriteTheirRegister : Obligations.ImmediateFormsWriteTheirRegister := by
  intro s x nn
  obtain ⟨hadd, hframe⟩ := s.setReg_retire_spec x (s.reg x + nn)
  exact ⟨⟨_, rfl, s.setReg_retire_spec x nn⟩, ⟨_, rfl, by rw [hadd, BitVec.toNat_add], hframe⟩⟩

/-- Settles O37: each form writes one register, and the bits of what it writes are those of its operator. -/
theorem logicFormsWriteTheirRegister : Obligations.LogicFormsWriteTheirRegister := by
  intro s x y
  obtain ⟨hor, hframeOr⟩ := s.setReg_retire_spec x (s.reg x ||| s.reg y)
  obtain ⟨hand, hframeAnd⟩ := s.setReg_retire_spec x (s.reg x &&& s.reg y)
  obtain ⟨hxor, hframeXor⟩ := s.setReg_retire_spec x (s.reg x ^^^ s.reg y)
  exact ⟨⟨_, rfl, s.setReg_retire_spec x (s.reg y)⟩,
    ⟨_, rfl, fun _ => by rw [hor, BitVec.getLsbD_or], hframeOr⟩,
    ⟨_, rfl, fun _ => by rw [hand, BitVec.getLsbD_and], hframeAnd⟩,
    ⟨_, rfl, fun _ => by rw [hxor, BitVec.getLsbD_xor], hframeXor⟩⟩

/-- Settles O40: RAND writes the masked byte after one draw. -/
theorem randMasksTheDrawnByte : Obligations.RandMasksTheDrawnByte := by
  intro s x nn
  obtain ⟨hx, hother, -⟩ := s.afterDraw.setReg_retire_spec x (s.drawnByte &&& nn)
  refine ⟨_, rfl, hx, fun b hb => ?_, fun h0 => ?_, fun hFF => ?_, hother, rfl⟩
  · rw [hx, BitVec.getLsbD_and, Bool.and_eq_true] at hb
    exact hb.2
  · rw [hx, h0]
    exact BitVec.and_zero
  · rw [hx, hFF]
    exact BitVec.and_allOnes

/-! ## The arithmetic forms under the flag policy (R173) -/

/-- A flag write stores 0 or 1 (10_state R22). -/
theorem flagByte_eq (b : Bool) : flagByte b = if b then 1 else 0 := rfl

/-- The result and the flag write of an arithmetic form, under every setting of ARITH_VF_POLICY. -/
theorem State.arith_arithResult (s : State) (x : Reg) (b : Byte) (f : Bool) :
    arithResult s ((s.setReg x b).writeArithFlag f).retire x b.toNat f := by
  have hreg : ∀ y, ((s.setReg x b).writeArithFlag f).retire.reg y = match s.params.arithVf with
      | .unchanged => (s.setReg x b).reg y
      | .carryBorrow => if y = flagReg then flagByte f else (s.setReg x b).reg y
      | .any => if y = flagReg then s.drawnByte else (s.setReg x b).reg y :=
    State.writeArithFlag_reg (s.setReg x b) f
  refine ⟨fun h => ?_, fun h hx => ?_, fun h => ?_, fun h => ?_, fun z hzx hzf => ?_, ?_⟩
  · rw [hreg]
    cases hp : s.params.arithVf <;> simp_all
  · simp [hreg, h, Ne.symm hx]
  · simp [hreg, h, flagByte_eq]
  · simp [hreg, h]
  · rw [hreg, State.setReg_reg_of_ne b hzx]
    cases s.params.arithVf <;> simp [hzf]
  · rw [← State.setReg_draws s x b, ← State.setReg_params s x b, ← State.writeArithFlag_draws, State.writeArithFlag_eq]
    rfl

/-- A difference of bytes, as natural numbers. -/
theorem byte_sub_toNat (a b : Byte) : (a - b).toNat = (a.toNat + 256 - b.toNat) % 256 := by bv_omega

/-- Settles O38. -/
theorem arithmeticFormsFollowTheFlagPolicy : Obligations.ArithmeticFormsFollowTheFlagPolicy := by
  refine fun s x y => ⟨⟨_, rfl, ?_⟩, ⟨_, rfl, ?_⟩, ⟨_, rfl, ?_⟩⟩
  · exact BitVec.toNat_add (s.reg x) (s.reg y) ▸ s.arith_arithResult x _ _
  · exact byte_sub_toNat (s.reg x) (s.reg y) ▸ s.arith_arithResult x _ _
  · exact byte_sub_toNat (s.reg y) (s.reg x) ▸ s.arith_arithResult x _ _

/-! ## Shifts (R176) -/

/-- The flag written to VF, then V[x] read again and shifted by `shift`, then retire. -/
def State.shiftReg (s : State) (x : Reg) (flag : Byte) (shift : Byte → Byte) : State :=
  ((s.setReg flagReg flag).setReg x (shift ((s.setReg flagReg flag).reg x))).retire

theorem exec_bshiftRght (s : State) (x y : Reg) :
    exec (.bshiftRght x y) s = .next (s.shiftReg x (shiftRightFlag (s.reg x)) (· >>> 1)) := rfl

theorem exec_bshiftLeft (s : State) (x y : Reg) :
    exec (.bshiftLeft x y) s = .next (s.shiftReg x (shiftLeftFlag (s.reg x)) (· <<< 1)) := rfl

section ShiftReg

variable (s : State) (x : Reg) (flag : Byte) (shift : Byte → Byte)

/-- VF keeps the flag when it is not the register shifted. -/
theorem State.shiftReg_flag (h : x ≠ flagReg) : (s.shiftReg x flag shift).reg flagReg = flag := by
  rw [State.shiftReg, State.retire_reg, State.setReg_reg_of_ne _ (Ne.symm h), State.setReg_reg_same]

/-- A register other than VF is shifted as it was. -/
theorem State.shiftReg_self (h : x ≠ flagReg) : (s.shiftReg x flag shift).reg x = shift (s.reg x) := by
  rw [State.shiftReg, State.retire_reg, State.setReg_reg_same, State.setReg_reg_of_ne _ h]

/-- With x = 15 the fresh flag is shifted. -/
theorem State.shiftReg_flagReg : (s.shiftReg flagReg flag shift).reg flagReg = shift flag := by
  rw [State.shiftReg, State.retire_reg, State.setReg_reg_same, State.setReg_reg_same]

theorem State.shiftReg_reg_of_ne {z : Reg} (hx : z ≠ x) (hflag : z ≠ flagReg) :
    (s.shiftReg x flag shift).reg z = s.reg z :=
  State.shift_reg_of_not_written _ _ (not_or.mpr ⟨hx, hflag⟩)

end ShiftReg

/-- A flag stores its bit. -/
theorem flagByte_getLsbD_toNat (b : Byte) (k : Nat) : (flagByte (b.getLsbD k)).toNat = b.toNat / 2 ^ k % 2 := by
  have hbit : ∀ c : Bool, (flagByte c).toNat = c.toNat := by decide
  rw [hbit, BitVec.getLsbD, Nat.toNat_testBit]

/-- The flag of BSHIFT_RGHT is the most significant bit. -/
theorem shiftRightFlag_toNat (b : Byte) : (shiftRightFlag b).toNat = b.toNat / 128 := by
  have := b.isLt
  rw [shiftRightFlag, flagByte_getLsbD_toNat]
  omega

/-- The flag of BSHIFT_LEFT is the least significant bit. -/
theorem shiftLeftFlag_toNat (b : Byte) : (shiftLeftFlag b).toNat = b.toNat % 2 := by
  rw [shiftLeftFlag, flagByte_getLsbD_toNat]
  omega

/-- A shift right halves. -/
theorem byte_shiftRight_one_toNat (b : Byte) : (b >>> 1).toNat = b.toNat / 2 := by
  rw [BitVec.toNat_ushiftRight, Nat.shiftRight_one]

/-- A shift left doubles modulo 256. -/
theorem byte_shiftLeft_one_toNat (b : Byte) : (b <<< 1).toNat = b.toNat * 2 % 256 := by
  rw [BitVec.toNat_shiftLeft, Nat.shiftLeft_eq]

/-- Settles O39: the value shifted is the old V[x], or the fresh flag when x = 15. -/
theorem shiftsFlagThenShiftTheirRegister : Obligations.ShiftsFlagThenShiftTheirRegister := by
  refine fun s x y => ⟨⟨_, exec_bshiftRght s x y, exec_bshiftRght s x, fun hx => ⟨?_, ?_⟩, ?_, fun z => ?_, rfl⟩,
    ⟨_, exec_bshiftLeft s x y, exec_bshiftLeft s x, fun hx => ⟨?_, ?_⟩, ?_, fun z => ?_, rfl⟩⟩
  · rw [State.shiftReg_flag s x _ _ hx, shiftRightFlag_toNat]
  · rw [State.shiftReg_self s x _ _ hx, byte_shiftRight_one_toNat]
  · rintro rfl
    rw [State.shiftReg_flagReg]
    apply BitVec.eq_of_toNat_eq
    rw [byte_shiftRight_one_toNat, shiftRightFlag_toNat]
    have := (s.reg flagReg).isLt
    show _ = 0
    omega
  · exact State.shiftReg_reg_of_ne s x _ _
  · rw [State.shiftReg_flag s x _ _ hx, shiftLeftFlag_toNat]
  · rw [State.shiftReg_self s x _ _ hx, byte_shiftLeft_one_toNat]
  · rintro rfl
    rw [State.shiftReg_flagReg, byte_shiftLeft_one_toNat, shiftLeftFlag_toNat]
    omega
  · exact State.shiftReg_reg_of_ne s x _ _

end Sys2Proof.Machine
end

section
/-! PROOFS. The index register and the memory transfers (spec/43_index_memory.md R180 to R185, 20_memory.md R64). -/

namespace Sys2Proof.Machine

variable {s t : State}

/-! ## The index register -/

/-- A glyph's address does not wrap: 255 times 5 is below 65536 (decision D11). -/
theorem glyphAddress_toNat (b : Byte) : (glyphAddress b).toNat = b.toNat * 5 := by
  have := b.isLt
  have h5 : (5 : Word).toNat = 5 := rfl
  rw [glyphAddress, BitVec.toNat_mul, wordOfByte_toNat, h5]
  exact Nat.mod_eq_of_lt (by omega)

/-- Settles O41. -/
theorem setiAndAddiWriteTheIndex : Obligations.SetiAndAddiWriteTheIndex := by
  refine fun s nnn x => ⟨⟨_, rfl, wordOfAddr_toNat nnn, rfl⟩, ⟨_, rfl, ?_, rfl⟩⟩
  rw [State.retire_i, State.setI_i, BitVec.toNat_add, wordOfByte_toNat]

/-- Settles O42. -/
theorem spriPointsAtTheGlyph : Obligations.SpriPointsAtTheGlyph :=
  fun s x => ⟨_, rfl, glyphAddress_toNat (s.reg x), rfl⟩

/-! ## Stores at I -/

/-- A store that stays below 4096 completes: the bytes stand at I upwards, and every other byte reads as before. -/
theorem storeAtIndex_fits {bytes : List Byte} (hm : s.mem.wf) (h : bytes = [] ∨ s.i.toNat + bytes.length ≤ 4096) :
    ∃ m, s.storeAtIndex bytes = .next (s.setMem m).retire ∧
      (∀ k < bytes.length, Memory.byteAt m (s.i.toNat + k) = bytes.getD k 0) ∧
      ∀ a, (∀ k < bytes.length, a ≠ s.i.toNat + k) → Memory.byteAt m a = s.mem.byteAt a := by
  obtain ⟨m, hwrite⟩ := Option.isSome_iff_exists.mp (Memory.writeSpan_isSome s.mem bytes s.base h)
  obtain ⟨-, -, hbyte⟩ := Memory.writeSpan_spec s.mem m s.base bytes hm hwrite
  rw [State.base] at hwrite hbyte
  refine ⟨m, by rw [State.storeAtIndex, State.base, hwrite], fun k hk => ?_, fun a ha => ?_⟩
  · rw [hbyte, if_pos (by omega), Nat.add_sub_cancel_left]
  · rw [hbyte, if_neg fun hin => ha (a - s.i.toNat) (by omega) (by omega)]

/-- A store that reaches 4096 takes DataWrite (decision D10). -/
theorem storeAtIndex_beyond {bytes : List Byte} (h0 : bytes ≠ []) (h : 4096 < s.i.toNat + bytes.length) :
    s.storeAtIndex bytes = .next (s.raise .dataWrite (max s.i.toNat 4096)) := by
  rw [State.storeAtIndex, Memory.writeSpan_none s.mem bytes s.base h0 h]
  rfl

theorem decimalDigits_length (b : Byte) : (decimalDigits b).length = 3 := rfl

/-- The digits of a byte, hundreds first, each of which fits a byte (43_index_memory R183). -/
theorem decimalDigits_toNat (b : Byte) :
    ((decimalDigits b).getD 0 0).toNat = b.toNat / 100 ∧ ((decimalDigits b).getD 1 0).toNat = b.toNat / 10 % 10 ∧
      ((decimalDigits b).getD 2 0).toNat = b.toNat % 10 := by
  have := b.isLt
  simp only [decimalDigits, List.getD_cons_zero, List.getD_cons_succ, BitVec.toNat_ofNat]
  omega

/-- Settles O43. -/
theorem bcpStoresDecimalDigits : Obligations.BcpStoresDecimalDigits := by
  intro s x
  have hlen := decimalDigits_length (s.reg x)
  obtain ⟨hhundreds, htens, hones⟩ := decimalDigits_toNat (s.reg x)
  refine ⟨fun hm h => ?_, fun h => storeAtIndex_beyond (List.ne_nil_of_length_eq_add_one hlen) (by omega)⟩
  obtain ⟨m, hexec, hin, hout⟩ := storeAtIndex_fits (bytes := decimalDigits (s.reg x)) hm (.inr (by omega))
  rw [hlen] at hin hout
  exact ⟨_, hexec, (congrArg BitVec.toNat (hin 0 (by omega))).trans hhundreds,
    (congrArg BitVec.toNat (hin 1 (by omega))).trans htens, (congrArg BitVec.toNat (hin 2 (by omega))).trans hones, hout, rfl⟩

/-- Settles O44: `len` is the length of what DUMP stores, under either setting. -/
theorem dumpStoresTheFirstRegisters : Obligations.DumpStoresTheFirstRegisters := by
  intro s x len hlen
  obtain rfl : len = s.blockLength x := hlen
  have hlength := s.firstRegs_length (s.blockLength x) (s.blockLength_le x)
  refine ⟨fun hm h => ?_, fun h0 h => storeAtIndex_beyond (List.ne_nil_of_length_pos (by omega)) (by omega)⟩
  obtain ⟨m, hexec, hin, hout⟩ := storeAtIndex_fits (bytes := s.firstRegs (s.blockLength x)) hm
    (h.imp (fun h0 => List.eq_nil_of_length_eq_zero (by omega)) (by omega))
  rw [hlength] at hin hout
  exact ⟨_, hexec, fun r hr => (hin r hr).trans (s.firstRegs_getD _ r hr), hout, rfl⟩

/-! ## Loads from I -/

/-- LOAD of a range below 4096. -/
theorem exec_load_fits {x : Count} (h : s.blockLength x = 0 ∨ s.i.toNat + s.blockLength x ≤ 4096) : exec (.load x) s =
    .next (s.setRegs ((List.range (s.blockLength x)).map fun k => s.mem.byteAt (s.i.toNat + k))).retire := by
  rw [exec, execLoad, Memory.readSpan_eq s.mem (s.blockLength x) s.base h]
  rfl

/-- LOAD of a range that reaches 4096 takes DataRead (decision D10). -/
theorem exec_load_beyond {x : Count} (h0 : 0 < s.blockLength x) (h : 4096 < s.i.toNat + s.blockLength x) :
    exec (.load x) s = .next (s.raise .dataRead (max s.i.toNat 4096)) := by
  rw [exec, execLoad, Memory.readSpan_none s.mem (s.blockLength x) s.base h0 h]
  rfl

/-- Settles O45. -/
theorem loadReadsTheFirstRegisters : Obligations.LoadReadsTheFirstRegisters := by
  intro s x len hlen
  obtain rfl : len = s.blockLength x := hlen
  refine ⟨fun h => ⟨_, exec_load_fits h, fun r hr => ?_, fun r hr => ?_, rfl⟩, exec_load_beyond⟩
  · rw [State.retire_reg, State.setRegs_reg]
    simp [List.getD_eq_getElem?_getD, hr]
  · rw [State.retire_reg, State.setRegs_reg_of_length_le (by simpa using hr)]

/-! ## What a completed DUMP has stored -/

/-- A DUMP that leaves the run going has kept its range below 4096, and the registers dumped stand there. -/
theorem dump_completed {x : Count} (hm : s.mem.wf) (hexec : exec (.dump x) s = .next t) (ht : t.status = .running) :
    (s.blockLength x = 0 ∨ s.i.toNat + s.blockLength x ≤ 4096) ∧
      ∀ r : Reg, r.val < s.blockLength x → t.mem.byteAt (s.i.toNat + r.val) = s.reg r := by
  obtain ⟨hfits, hbeyond⟩ := dumpStoresTheFirstRegisters s x (s.blockLength x) rfl
  by_cases h : s.blockLength x = 0 ∨ s.i.toNat + s.blockLength x ≤ 4096
  · obtain ⟨t', ht', hstored, -, -⟩ := hfits hm h
    obtain rfl : t' = t := by simpa [ht'] using hexec
    exact ⟨h, hstored⟩
  · rw [hbeyond (by omega) (by omega)] at hexec
    cases hexec
    cases ht

/-- Settles O46: LOAD reads from the range that DUMP has stored to. -/
theorem loadRestoresWhatDumpStored : Obligations.LoadRestoresWhatDumpStored := by
  intro s t u x hm _ hexec ht hmem hi hparams
  obtain ⟨hfits, hstored⟩ := dump_completed hm hexec ht
  have hlen : u.blockLength x = s.blockLength x := by rw [State.blockLength, hparams, State.blockLength]
  obtain ⟨w, hload, hread, -, -⟩ := (loadReadsTheFirstRegisters u x (u.blockLength x) rfl).1 (by rwa [hlen, hi])
  refine ⟨w, hload, fun r hr => ?_⟩
  rw [hread r (hlen ▸ hr), hmem, hi, hstored r hr]

/-- Settles O47: both bytes that the fetch reads lie in the range that DUMP has stored to. -/
theorem storesAreSeenByTheNextFetch : Obligations.StoresAreSeenByTheNextFetch := by
  intro s t u x r h hm _ hexec ht hr hmem hpc
  obtain ⟨hfits, hstored⟩ := dump_completed hm hexec ht
  have hr : r.val + 1 < s.blockLength x := hr
  have hhi : u.mem.byteAt u.pc.toNat = s.reg r := by rw [hmem, hpc, hstored r (by omega)]
  have hlo : u.mem.byteAt (u.pc.toNat + 1) = s.reg ⟨r.val + 1, h⟩ := by
    rw [hmem, hpc, Nat.add_assoc, hstored ⟨r.val + 1, h⟩ hr]
  rw [State.fetch_ok u (by omega), State.wordAtPc, hhi, hlo]

end Sys2Proof.Machine
end

section
/-! PROOFS. DRAW: exclusive or on the covered cells, the collision flag, and its laws (spec/44_display.md R191 to R195). -/

namespace Sys2Proof.Machine

variable {s t : State} {x y : Reg} {n : Count}

/-! ## Cells -/

/-- Coordinates wrap on both axes. -/
theorem FrameBuffer.cell_mod (fb : FrameBuffer) (cx cy : Nat) : fb.cell (cx % 64) (cy % 32) = fb.cell cx cy := by
  simp only [FrameBuffer.cell, fbWidth, fbHeight, Nat.mod_mod]

/-- Framebuffers with the same cells are the same. -/
theorem FrameBuffer.ext_cell {f g : FrameBuffer} (h : ∀ cx cy, f.cell cx cy = g.cell cx cy) : f = g := by
  ext cy hcy cx hcx
  simpa only [FrameBuffer.cell, Nat.mod_eq_of_lt hcx, Nat.mod_eq_of_lt hcy] using h cx cy

/-! ## What a completed DRAW does -/

/-- The sprite's bit in row r and column c, most significant bit first (R191). -/
def State.spriteBit (s : State) (r c : Nat) : Bool := (s.mem.byteAt (s.i.toNat + r)).getLsbD (7 - c)

/-- A covered cell is lit under a sprite bit of 1, or of 0 if DRAW_COLLIDE_ZERO_BITS (R191, decision D7). -/
def State.Collides (s : State) (x y : Reg) (n : Count) : Prop :=
  ∃ r c, r < n.val ∧ c < 8 ∧ s.fb.cell ((s.reg x).toNat + c) ((s.reg y).toNat + r) = true ∧
    (s.spriteBit r c = true ∨ s.params.collideZeroBits = true)

/-- The sprite's row r and column c cover the cell at (cx, cy), with wrap. -/
def State.Covers (s : State) (x y : Reg) (r c cx cy : Nat) : Prop :=
  cx % 64 = ((s.reg x).toNat + c) % 64 ∧ cy % 32 = ((s.reg y).toNat + r) % 32

/-- Everything a DRAW that takes no fault does. -/
structure State.Draws (s : State) (x y : Reg) (n : Count) (t : State) : Prop where
  covered : ∀ r c cx cy, r < n.val → c < 8 → s.Covers x y r c cx cy →
    t.fb.cell cx cy = (s.fb.cell cx cy ^^ s.spriteBit r c)
  uncovered : ∀ cx cy, (∀ r c, r < n.val → c < 8 → ¬ s.Covers x y r c cx cy) → t.fb.cell cx cy = s.fb.cell cx cy
  hit : s.Collides x y n → t.reg flagReg = 1
  miss : ¬ s.Collides x y n → t.reg flagReg = s.reg flagReg
  reg : ∀ z, z ≠ flagReg → t.reg z = s.reg z
  frame : t = { s with fb := t.fb, v := t.v, pc := s.pc + 2 }

/-- The n rows of a sprite below 4096. -/
def State.spriteRows (s : State) (n : Nat) : List Byte := (List.range n).map fun r => s.mem.byteAt (s.i.toNat + r)

theorem State.spriteRows_length (s : State) (n : Nat) : (s.spriteRows n).length = n := by simp [State.spriteRows]

/-- The bits of the rows. -/
theorem State.spriteRows_getLsbD (s : State) {n r : Nat} (c : Nat) (h : r < n) :
    ((s.spriteRows n).getD r 0).getLsbD (7 - c) = s.spriteBit r c := by
  simp [State.spriteRows, State.spriteBit, List.getD_eq_getElem?_getD, h]

/-- Plotting the rows, then the flag write and the retire. -/
theorem draws_drawn (s : State) (x y : Reg) (n : Count) : s.Draws x y n
    ((s.setFb (s.drawn x y (s.spriteRows n.val)).1).writeCollision (s.drawn x y (s.spriteRows n.val)).2).retire := by
  have hlen := s.spriteRows_length n.val
  obtain ⟨hcovered, huncovered, hhit⟩ := blitSprite_spec s.params.collideZeroBits (s.reg x).toNat (s.reg y).toNat
    (s.spriteRows n.val) (by rw [hlen]; exact Nat.le_trans (Nat.le_of_lt n.isLt) (by decide)) (s.fb, false)
  rw [hlen] at hcovered huncovered hhit
  have hcollides : (s.drawn x y (s.spriteRows n.val)).2 = true ↔ s.Collides x y n := by
    rw [State.drawn, hhit, State.Collides]
    simp only [Bool.false_eq_true, false_or]
    refine exists_congr fun r => exists_congr fun c => and_congr_right fun hr => ?_
    rw [s.spriteRows_getLsbD c hr]
  have hfb : ∀ (f : FrameBuffer) (b : Bool), ((s.setFb f).writeCollision b).retire.fb = f := fun f b => by
    rw [State.writeCollision_eq]; rfl
  exact {
    covered := fun r c cx cy hr hc ⟨hx, hy⟩ => by
      rw [hfb, ← FrameBuffer.cell_mod, hx, hy, FrameBuffer.cell_mod, State.drawn, hcovered r c hr hc,
        s.spriteRows_getLsbD c hr, ← FrameBuffer.cell_mod s.fb cx, hx, hy, FrameBuffer.cell_mod]
    uncovered := fun cx cy h => by
      rw [hfb]
      exact huncovered cx cy h
    hit := fun h => by rw [State.retire_reg, State.writeCollision_reg, if_pos ⟨hcollides.mpr h, rfl⟩]
    miss := fun h => by
      rw [State.retire_reg, State.writeCollision_reg, if_neg fun hc => h (hcollides.mp hc.1), State.setFb_reg]
    reg := fun z hz => by rw [State.retire_reg, State.writeCollision_reg_of_ne _ hz, State.setFb_reg]
    frame := by rw [hfb, State.writeCollision_eq]; rfl }

/-- DRAW of rows below 4096 completes. -/
theorem exec_draw_fits (x y : Reg) (h : n.val = 0 ∨ s.i.toNat + n.val ≤ 4096) :
    ∃ t, exec (.draw x y n) s = .next t ∧ s.Draws x y n t := by
  refine ⟨_, ?_, draws_drawn s x y n⟩
  rw [exec, execDraw, Memory.readSpan_eq s.mem n.val s.base h]
  rfl

/-- DRAW of a row at 4096 or above takes DataRead (decision D10). -/
theorem exec_draw_beyond (x y : Reg) (h0 : 0 < n.val) (h : 4096 < s.i.toNat + n.val) :
    exec (.draw x y n) s = .next (s.raise .dataRead (max s.i.toNat 4096)) := by
  rw [exec, execDraw, Memory.readSpan_none s.mem n.val s.base h0 h]
  rfl

/-- Everything DRAW can do: its rows are below 4096 and it draws, or it takes DataRead. -/
theorem exec_draw_next (h : exec (.draw x y n) s = .next t) :
    ((n.val = 0 ∨ s.i.toNat + n.val ≤ 4096) ∧ s.Draws x y n t) ∨
    ((0 < n.val ∧ 4096 < s.i.toNat + n.val) ∧ t = s.raise .dataRead (max s.i.toNat 4096)) := by
  by_cases hfits : n.val = 0 ∨ s.i.toNat + n.val ≤ 4096
  · obtain ⟨t', ht', hdraws⟩ := exec_draw_fits (s := s) x y hfits
    obtain rfl : t' = t := by simpa [ht'] using h
    exact .inl ⟨hfits, hdraws⟩
  · have hbeyond : 0 < n.val ∧ 4096 < s.i.toNat + n.val := by omega
    rw [exec_draw_beyond x y hbeyond.1 hbeyond.2] at h
    exact .inr ⟨hbeyond, by cases h; rfl⟩

/-! ## The obligations -/

/-- Settles O53. -/
theorem drawCombinesByExclusiveOr : Obligations.DrawCombinesByExclusiveOr := by
  rintro s x y n _ _ bit hit rfl rfl hbit hhit
  obtain rfl : bit = s.spriteBit := funext fun r => funext (hbit r)
  refine ⟨fun h => ?_, exec_draw_beyond x y⟩
  obtain ⟨t, ht, hd⟩ := exec_draw_fits x y h
  refine ⟨t, ht, fun r c hr hc => hd.covered r c _ _ hr hc ⟨Nat.mod_mod .., Nat.mod_mod ..⟩, fun cx cy hx hy h => ?_,
    fun h => hd.hit (hhit.mp h), fun h => hd.miss fun hc => h (hhit.mpr hc), hd.reg, hd.frame⟩
  refine hd.uncovered cx cy fun r c hr hc => ?_
  rw [State.Covers, Nat.mod_eq_of_lt hx, Nat.mod_eq_of_lt hy]
  exact h r c hr hc

/-- A DRAW keeps the sprite and the setting of the parameters. -/
theorem State.Draws.spriteBit (h : s.Draws x y n t) (r c : Nat) : t.spriteBit r c = s.spriteBit r c := by
  rw [State.spriteBit, h.frame, State.spriteBit]

/-- A cell is covered by some row and column of the sprite, or by none. -/
theorem State.covers_or_not (s : State) (x y : Reg) (n : Count) (cx cy : Nat) :
    (∃ r c, r < n.val ∧ c < 8 ∧ s.Covers x y r c cx cy) ∨ ∀ r c, r < n.val → c < 8 → ¬ s.Covers x y r c cx cy := by
  by_cases h : ∃ r c, r < n.val ∧ c < 8 ∧ s.Covers x y r c cx cy
  · exact .inl h
  · exact .inr fun r c hr hc hcov => h ⟨r, c, hr, hc, hcov⟩

/-- A cell that a DRAW has lit is a covered one under a sprite bit of 1, so the same DRAW again collides there. -/
theorem State.Draws.collides_of_lit (h : s.Draws x y n t) (hx : t.reg x = s.reg x) (hy : t.reg y = s.reg y) {cx cy : Nat}
    (hoff : s.fb.cell cx cy = false) (hon : t.fb.cell cx cy = true) : t.Collides x y n := by
  obtain ⟨r, c, hr, hc, hcov⟩ | hnone := s.covers_or_not x y n cx cy
  · have hbit : s.spriteBit r c = true := by simpa [h.covered r c cx cy hr hc hcov, hoff] using hon
    refine ⟨r, c, hr, hc, ?_, .inl (by rw [h.spriteBit, hbit])⟩
    rw [hx, hy, ← FrameBuffer.cell_mod, ← hcov.1, ← hcov.2, FrameBuffer.cell_mod, hon]
  · rw [h.uncovered cx cy hnone, hoff] at hon
    cases hon

/-- The same DRAW again at the same location takes each cell back. -/
theorem State.Draws.cell_of_twice {u : State} (h : s.Draws x y n t) (h' : t.Draws x y n u) (hx : t.reg x = s.reg x)
    (hy : t.reg y = s.reg y) (cx cy : Nat) : u.fb.cell cx cy = s.fb.cell cx cy := by
  have hsame : ∀ r c, t.Covers x y r c cx cy ↔ s.Covers x y r c cx cy := fun r c => by
    rw [State.Covers, State.Covers, hx, hy]
  obtain ⟨r, c, hr, hc, hcov⟩ | hnone := s.covers_or_not x y n cx cy
  · rw [h'.covered r c cx cy hr hc ((hsame r c).mpr hcov), h.covered r c cx cy hr hc hcov, h.spriteBit, Bool.xor_assoc,
      Bool.xor_self, Bool.xor_false]
  · rw [h'.uncovered cx cy fun r c hr hc hcov => hnone r c hr hc ((hsame r c).mp hcov), h.uncovered cx cy hnone]

/-- Settles O54: neither draw faults, since the second reads the rows of the first. -/
theorem drawingTwiceRestoresTheFramebuffer : Obligations.DrawingTwiceRestoresTheFramebuffer := by
  intro s t u x y n _ h ht hx hy h'
  obtain ⟨hfits, hd⟩ | ⟨-, rfl⟩ := exec_draw_next h
  · have hi : t.i = s.i := by rw [hd.frame]
    obtain ⟨-, hd'⟩ | ⟨⟨h0, hbeyond⟩, -⟩ := exec_draw_next h'
    · exact ⟨FrameBuffer.ext_cell fun cx cy => hd.cell_of_twice hd' hx hy cx cy,
        fun ⟨_, _, hoff, hon⟩ => hd'.hit (hd.collides_of_lit hx hy hoff hon)⟩
    · rw [hi] at hbeyond
      omega
  · cases ht

/-- Settles O55: on a clear framebuffer no covered cell is lit, and a bit of 0 leaves its cell. -/
theorem drawOnClearScreenOrOfZerosIsHarmless : Obligations.DrawOnClearScreenOrOfZerosIsHarmless := by
  intro s t x y n h
  obtain ⟨-, hd⟩ | ⟨-, rfl⟩ := exec_draw_next h
  · refine ⟨fun hclear z => ?_, fun hzero => FrameBuffer.ext_cell fun cx cy => ?_⟩
    · by_cases hz : z = flagReg
      · rw [hz]
        exact hd.miss fun ⟨r, c, _, _, hlit, _⟩ => by simp [hclear] at hlit
      · exact hd.reg z hz
    · obtain ⟨r, c, hr, hc, hcov⟩ | hnone := s.covers_or_not x y n cx cy
      · rw [hd.covered r c cx cy hr hc hcov, State.spriteBit, hzero r hr]
        simp
      · exact hd.uncovered cx cy hnone
  · exact ⟨fun _ _ => rfl, fun _ => rfl⟩

end Sys2Proof.Machine
end
